-- ==== Sys2Proof/Word.lean ====
section
/-! DEFINITION. The words of the two serial lines (bytes) and the time left on a timer. -/

namespace Sys2Proof

/-- One byte of a serial line (R178, R180). -/
abbrev Byte := BitVec 8

/-- Time left on a timer in milliseconds; `none` while it is stopped or has expired. -/
abbrev Timer := Option Nat

/-- A timer started with `ms` milliseconds left. -/
abbrev Timer.start (ms : Nat) : Timer := some ms

/-- A timer started with `s` seconds left. -/
abbrev Timer.seconds (s : Nat) : Timer := some (1000 * s)

end Sys2Proof
end

