-- ==== Sys2Proof/Machine/Tables.lean ====
section
/-! DEFINITION. The fixed sets of names the manual numbers (zones, doors, decks, steppers, channels, watches, lists,
counters, table rows) and, for each, a table that holds one value per name, with its read and write. -/

namespace Sys2Proof

variable {α : Type}

/-- The names of the six zones in table order (Table 1-1). -/
inductive Zone where
  | u1 | u2 | u3 | l1 | l2 | e
  deriving DecidableEq, Repr

/-- One value for each of the six zones in table order (Table 1-1). -/
structure Zones (α : Type) where
  u1 : α
  u2 : α
  u3 : α
  l1 : α
  l2 : α
  e : α
  deriving DecidableEq, Repr

/-- All of them, in table order. -/
def Zone.all : List Zone := [.u1, .u2, .u3, .l1, .l2, .e]

/-- Table position. -/
def Zone.pos : Zone → Nat
  | .u1 => 0
  | .u2 => 1
  | .u3 => 2
  | .l1 => 3
  | .l2 => 4
  | .e => 5

/-- The name at a table position. -/
def Zone.at : Nat → Option Zone
  | 0 => some .u1
  | 1 => some .u2
  | 2 => some .u3
  | 3 => some .l1
  | 4 => some .l2
  | 5 => some .e
  | _ => none

def Zones.get (t : Zones α) : Zone → α
  | .u1 => t.u1
  | .u2 => t.u2
  | .u3 => t.u3
  | .l1 => t.l1
  | .l2 => t.l2
  | .e => t.e

def Zones.set (t : Zones α) (i : Zone) (a : α) : Zones α :=
  match i with
  | .u1 => { t with u1 := a }
  | .u2 => { t with u2 := a }
  | .u3 => { t with u3 := a }
  | .l1 => { t with l1 := a }
  | .l2 => { t with l2 := a }
  | .e => { t with e := a }

/-- The table whose value at each name is given. -/
def Zones.ofFn (f : Zone → α) : Zones α := ⟨f .u1, f .u2, f .u3, f .l1, f .l2, f .e⟩

/-- The same value everywhere. -/
def Zones.const (a : α) : Zones α := Zones.ofFn fun _ => a

@[simp] theorem Zones.get_ofFn (f : Zone → α) (i : Zone) : (Zones.ofFn f).get i = f i := by cases i <;> rfl
@[simp] theorem Zones.get_const (a : α) (i : Zone) : (Zones.const a).get i = a := by cases i <;> rfl
@[simp] theorem Zones.get_set_self (t : Zones α) (i : Zone) (a : α) : (t.set i a).get i = a := by cases i <;> rfl
theorem Zones.get_set_ne (t : Zones α) (a : α) : ∀ i j : Zone, j ≠ i → (t.set i a).get j = t.get j := by
  intro i j h
  cases i <;> cases j <;> first | rfl | exact absurd rfl h
theorem Zones.get_set (t : Zones α) (i j : Zone) (a : α) : (t.set i a).get j = if j = i then a else t.get j := by
  by_cases h : j = i
  · subst h; simp
  · simp [h, Zones.get_set_ne t a i j h]
theorem Zones.ext_get (t u : Zones α) (h : ∀ i, t.get i = u.get i) : t = u := by
  cases t; cases u
  simp only [Zones.mk.injEq]
  exact ⟨h .u1, h .u2, h .u3, h .l1, h .l2, h .e⟩

/-- The names of the two passenger doors (Table 1-6). -/
inductive Door where
  | d1 | d2
  deriving DecidableEq, Repr

/-- One value for each of the two passenger doors (Table 1-6). -/
structure Doors (α : Type) where
  d1 : α
  d2 : α
  deriving DecidableEq, Repr

/-- All of them, in table order. -/
def Door.all : List Door := [.d1, .d2]

/-- Table position. -/
def Door.pos : Door → Nat
  | .d1 => 0
  | .d2 => 1

/-- The name at a table position. -/
def Door.at : Nat → Option Door
  | 0 => some .d1
  | 1 => some .d2
  | _ => none

def Doors.get (t : Doors α) : Door → α
  | .d1 => t.d1
  | .d2 => t.d2

def Doors.set (t : Doors α) (i : Door) (a : α) : Doors α :=
  match i with
  | .d1 => { t with d1 := a }
  | .d2 => { t with d2 := a }

/-- The table whose value at each name is given. -/
def Doors.ofFn (f : Door → α) : Doors α := ⟨f .d1, f .d2⟩

/-- The same value everywhere. -/
def Doors.const (a : α) : Doors α := Doors.ofFn fun _ => a

@[simp] theorem Doors.get_ofFn (f : Door → α) (i : Door) : (Doors.ofFn f).get i = f i := by cases i <;> rfl
@[simp] theorem Doors.get_const (a : α) (i : Door) : (Doors.const a).get i = a := by cases i <;> rfl
@[simp] theorem Doors.get_set_self (t : Doors α) (i : Door) (a : α) : (t.set i a).get i = a := by cases i <;> rfl
theorem Doors.get_set_ne (t : Doors α) (a : α) : ∀ i j : Door, j ≠ i → (t.set i a).get j = t.get j := by
  intro i j h
  cases i <;> cases j <;> first | rfl | exact absurd rfl h
theorem Doors.get_set (t : Doors α) (i j : Door) (a : α) : (t.set i a).get j = if j = i then a else t.get j := by
  by_cases h : j = i
  · subst h; simp
  · simp [h, Doors.get_set_ne t a i j h]
theorem Doors.ext_get (t u : Doors α) (h : ∀ i, t.get i = u.get i) : t = u := by
  cases t; cases u
  simp only [Doors.mk.injEq]
  exact ⟨h .d1, h .d2⟩

/-- The names of the two decks (Table 1-1). -/
inductive Deck where
  | upper | lower
  deriving DecidableEq, Repr

/-- One value for each of the two decks (Table 1-1). -/
structure Decks (α : Type) where
  upper : α
  lower : α
  deriving DecidableEq, Repr

/-- All of them, in table order. -/
def Deck.all : List Deck := [.upper, .lower]

/-- Table position. -/
def Deck.pos : Deck → Nat
  | .upper => 0
  | .lower => 1

/-- The name at a table position. -/
def Deck.at : Nat → Option Deck
  | 0 => some .upper
  | 1 => some .lower
  | _ => none

def Decks.get (t : Decks α) : Deck → α
  | .upper => t.upper
  | .lower => t.lower

def Decks.set (t : Decks α) (i : Deck) (a : α) : Decks α :=
  match i with
  | .upper => { t with upper := a }
  | .lower => { t with lower := a }

/-- The table whose value at each name is given. -/
def Decks.ofFn (f : Deck → α) : Decks α := ⟨f .upper, f .lower⟩

/-- The same value everywhere. -/
def Decks.const (a : α) : Decks α := Decks.ofFn fun _ => a

@[simp] theorem Decks.get_ofFn (f : Deck → α) (i : Deck) : (Decks.ofFn f).get i = f i := by cases i <;> rfl
@[simp] theorem Decks.get_const (a : α) (i : Deck) : (Decks.const a).get i = a := by cases i <;> rfl
@[simp] theorem Decks.get_set_self (t : Decks α) (i : Deck) (a : α) : (t.set i a).get i = a := by cases i <;> rfl
theorem Decks.get_set_ne (t : Decks α) (a : α) : ∀ i j : Deck, j ≠ i → (t.set i a).get j = t.get j := by
  intro i j h
  cases i <;> cases j <;> first | rfl | exact absurd rfl h
theorem Decks.get_set (t : Decks α) (i j : Deck) (a : α) : (t.set i a).get j = if j = i then a else t.get j := by
  by_cases h : j = i
  · subst h; simp
  · simp [h, Decks.get_set_ne t a i j h]
theorem Decks.ext_get (t u : Decks α) (h : ∀ i, t.get i = u.get i) : t = u := by
  cases t; cases u
  simp only [Decks.mk.injEq]
  exact ⟨h .upper, h .lower⟩

/-- The names of the eight steppers in table order (Table 6-2). -/
inductive Stepper where
  | fU1 | fU2 | fU3 | fL1 | fL2 | fE | fad | eev
  deriving DecidableEq, Repr

/-- One value for each of the eight steppers in table order (Table 6-2). -/
structure Steppers (α : Type) where
  fU1 : α
  fU2 : α
  fU3 : α
  fL1 : α
  fL2 : α
  fE : α
  fad : α
  eev : α
  deriving DecidableEq, Repr

/-- All of them, in table order. -/
def Stepper.all : List Stepper := [.fU1, .fU2, .fU3, .fL1, .fL2, .fE, .fad, .eev]

/-- Table position. -/
def Stepper.pos : Stepper → Nat
  | .fU1 => 0
  | .fU2 => 1
  | .fU3 => 2
  | .fL1 => 3
  | .fL2 => 4
  | .fE => 5
  | .fad => 6
  | .eev => 7

/-- The name at a table position. -/
def Stepper.at : Nat → Option Stepper
  | 0 => some .fU1
  | 1 => some .fU2
  | 2 => some .fU3
  | 3 => some .fL1
  | 4 => some .fL2
  | 5 => some .fE
  | 6 => some .fad
  | 7 => some .eev
  | _ => none

def Steppers.get (t : Steppers α) : Stepper → α
  | .fU1 => t.fU1
  | .fU2 => t.fU2
  | .fU3 => t.fU3
  | .fL1 => t.fL1
  | .fL2 => t.fL2
  | .fE => t.fE
  | .fad => t.fad
  | .eev => t.eev

def Steppers.set (t : Steppers α) (i : Stepper) (a : α) : Steppers α :=
  match i with
  | .fU1 => { t with fU1 := a }
  | .fU2 => { t with fU2 := a }
  | .fU3 => { t with fU3 := a }
  | .fL1 => { t with fL1 := a }
  | .fL2 => { t with fL2 := a }
  | .fE => { t with fE := a }
  | .fad => { t with fad := a }
  | .eev => { t with eev := a }

/-- The table whose value at each name is given. -/
def Steppers.ofFn (f : Stepper → α) : Steppers α := ⟨f .fU1, f .fU2, f .fU3, f .fL1, f .fL2, f .fE, f .fad, f .eev⟩

/-- The same value everywhere. -/
def Steppers.const (a : α) : Steppers α := Steppers.ofFn fun _ => a

@[simp] theorem Steppers.get_ofFn (f : Stepper → α) (i : Stepper) : (Steppers.ofFn f).get i = f i := by cases i <;> rfl
@[simp] theorem Steppers.get_const (a : α) (i : Stepper) : (Steppers.const a).get i = a := by cases i <;> rfl
@[simp] theorem Steppers.get_set_self (t : Steppers α) (i : Stepper) (a : α) : (t.set i a).get i = a := by cases i <;> rfl
theorem Steppers.get_set_ne (t : Steppers α) (a : α) : ∀ i j : Stepper, j ≠ i → (t.set i a).get j = t.get j := by
  intro i j h
  cases i <;> cases j <;> first | rfl | exact absurd rfl h
theorem Steppers.get_set (t : Steppers α) (i j : Stepper) (a : α) : (t.set i a).get j = if j = i then a else t.get j := by
  by_cases h : j = i
  · subst h; simp
  · simp [h, Steppers.get_set_ne t a i j h]
theorem Steppers.ext_get (t u : Steppers α) (h : ∀ i, t.get i = u.get i) : t = u := by
  cases t; cases u
  simp only [Steppers.mk.injEq]
  exact ⟨h .fU1, h .fU2, h .fU3, h .fL1, h .fL2, h .fE, h .fad, h .eev⟩

/-- The names of the sixteen sensor channels in table order (Table 7-1). -/
inductive Channel where
  | tU1 | tU2 | tU3 | tL1 | tL2 | tE | tOut | tCoil | tSupU | tSupL | tRet | pSuc | pDis | rh | co2U | co2L
  deriving DecidableEq, Repr

/-- One value for each of the sixteen sensor channels in table order (Table 7-1). -/
structure Channels (α : Type) where
  tU1 : α
  tU2 : α
  tU3 : α
  tL1 : α
  tL2 : α
  tE : α
  tOut : α
  tCoil : α
  tSupU : α
  tSupL : α
  tRet : α
  pSuc : α
  pDis : α
  rh : α
  co2U : α
  co2L : α
  deriving DecidableEq, Repr

/-- All of them, in table order. -/
def Channel.all : List Channel := [.tU1, .tU2, .tU3, .tL1, .tL2, .tE, .tOut, .tCoil, .tSupU, .tSupL, .tRet, .pSuc, .pDis, .rh, .co2U, .co2L]

/-- Table position. -/
def Channel.pos : Channel → Nat
  | .tU1 => 0
  | .tU2 => 1
  | .tU3 => 2
  | .tL1 => 3
  | .tL2 => 4
  | .tE => 5
  | .tOut => 6
  | .tCoil => 7
  | .tSupU => 8
  | .tSupL => 9
  | .tRet => 10
  | .pSuc => 11
  | .pDis => 12
  | .rh => 13
  | .co2U => 14
  | .co2L => 15

/-- The name at a table position. -/
def Channel.at : Nat → Option Channel
  | 0 => some .tU1
  | 1 => some .tU2
  | 2 => some .tU3
  | 3 => some .tL1
  | 4 => some .tL2
  | 5 => some .tE
  | 6 => some .tOut
  | 7 => some .tCoil
  | 8 => some .tSupU
  | 9 => some .tSupL
  | 10 => some .tRet
  | 11 => some .pSuc
  | 12 => some .pDis
  | 13 => some .rh
  | 14 => some .co2U
  | 15 => some .co2L
  | _ => none

def Channels.get (t : Channels α) : Channel → α
  | .tU1 => t.tU1
  | .tU2 => t.tU2
  | .tU3 => t.tU3
  | .tL1 => t.tL1
  | .tL2 => t.tL2
  | .tE => t.tE
  | .tOut => t.tOut
  | .tCoil => t.tCoil
  | .tSupU => t.tSupU
  | .tSupL => t.tSupL
  | .tRet => t.tRet
  | .pSuc => t.pSuc
  | .pDis => t.pDis
  | .rh => t.rh
  | .co2U => t.co2U
  | .co2L => t.co2L

def Channels.set (t : Channels α) (i : Channel) (a : α) : Channels α :=
  match i with
  | .tU1 => { t with tU1 := a }
  | .tU2 => { t with tU2 := a }
  | .tU3 => { t with tU3 := a }
  | .tL1 => { t with tL1 := a }
  | .tL2 => { t with tL2 := a }
  | .tE => { t with tE := a }
  | .tOut => { t with tOut := a }
  | .tCoil => { t with tCoil := a }
  | .tSupU => { t with tSupU := a }
  | .tSupL => { t with tSupL := a }
  | .tRet => { t with tRet := a }
  | .pSuc => { t with pSuc := a }
  | .pDis => { t with pDis := a }
  | .rh => { t with rh := a }
  | .co2U => { t with co2U := a }
  | .co2L => { t with co2L := a }

/-- The table whose value at each name is given. -/
def Channels.ofFn (f : Channel → α) : Channels α := ⟨f .tU1, f .tU2, f .tU3, f .tL1, f .tL2, f .tE, f .tOut, f .tCoil, f .tSupU, f .tSupL, f .tRet, f .pSuc, f .pDis, f .rh, f .co2U, f .co2L⟩

/-- The same value everywhere. -/
def Channels.const (a : α) : Channels α := Channels.ofFn fun _ => a

@[simp] theorem Channels.get_ofFn (f : Channel → α) (i : Channel) : (Channels.ofFn f).get i = f i := by cases i <;> rfl
@[simp] theorem Channels.get_const (a : α) (i : Channel) : (Channels.const a).get i = a := by cases i <;> rfl
@[simp] theorem Channels.get_set_self (t : Channels α) (i : Channel) (a : α) : (t.set i a).get i = a := by cases i <;> rfl
theorem Channels.get_set_ne (t : Channels α) (a : α) : ∀ i j : Channel, j ≠ i → (t.set i a).get j = t.get j := by
  intro i j h
  cases i <;> cases j <;> first | rfl | exact absurd rfl h
theorem Channels.get_set (t : Channels α) (i j : Channel) (a : α) : (t.set i a).get j = if j = i then a else t.get j := by
  by_cases h : j = i
  · subst h; simp
  · simp [h, Channels.get_set_ne t a i j h]
theorem Channels.ext_get (t u : Channels α) (h : ∀ i, t.get i = u.get i) : t = u := by
  cases t; cases u
  simp only [Channels.mk.injEq]
  exact ⟨h .tU1, h .tU2, h .tU3, h .tL1, h .tL2, h .tE, h .tOut, h .tCoil, h .tSupU, h .tSupL, h .tRet, h .pSuc, h .pDis, h .rh, h .co2U, h .co2L⟩

/-- The names of the numbers 0..7 of watches (R127) and lists (R135). -/
inductive Idx8 where
  | i0 | i1 | i2 | i3 | i4 | i5 | i6 | i7
  deriving DecidableEq, Repr

/-- One value for each of the numbers 0..7 of watches (R127) and lists (R135). -/
structure Eight (α : Type) where
  i0 : α
  i1 : α
  i2 : α
  i3 : α
  i4 : α
  i5 : α
  i6 : α
  i7 : α
  deriving DecidableEq, Repr

/-- All of them, in table order. -/
def Idx8.all : List Idx8 := [.i0, .i1, .i2, .i3, .i4, .i5, .i6, .i7]

/-- Table position. -/
def Idx8.pos : Idx8 → Nat
  | .i0 => 0
  | .i1 => 1
  | .i2 => 2
  | .i3 => 3
  | .i4 => 4
  | .i5 => 5
  | .i6 => 6
  | .i7 => 7

/-- The name at a table position. -/
def Idx8.at : Nat → Option Idx8
  | 0 => some .i0
  | 1 => some .i1
  | 2 => some .i2
  | 3 => some .i3
  | 4 => some .i4
  | 5 => some .i5
  | 6 => some .i6
  | 7 => some .i7
  | _ => none

def Eight.get (t : Eight α) : Idx8 → α
  | .i0 => t.i0
  | .i1 => t.i1
  | .i2 => t.i2
  | .i3 => t.i3
  | .i4 => t.i4
  | .i5 => t.i5
  | .i6 => t.i6
  | .i7 => t.i7

def Eight.set (t : Eight α) (i : Idx8) (a : α) : Eight α :=
  match i with
  | .i0 => { t with i0 := a }
  | .i1 => { t with i1 := a }
  | .i2 => { t with i2 := a }
  | .i3 => { t with i3 := a }
  | .i4 => { t with i4 := a }
  | .i5 => { t with i5 := a }
  | .i6 => { t with i6 := a }
  | .i7 => { t with i7 := a }

/-- The table whose value at each name is given. -/
def Eight.ofFn (f : Idx8 → α) : Eight α := ⟨f .i0, f .i1, f .i2, f .i3, f .i4, f .i5, f .i6, f .i7⟩

/-- The same value everywhere. -/
def Eight.const (a : α) : Eight α := Eight.ofFn fun _ => a

@[simp] theorem Eight.get_ofFn (f : Idx8 → α) (i : Idx8) : (Eight.ofFn f).get i = f i := by cases i <;> rfl
@[simp] theorem Eight.get_const (a : α) (i : Idx8) : (Eight.const a).get i = a := by cases i <;> rfl
@[simp] theorem Eight.get_set_self (t : Eight α) (i : Idx8) (a : α) : (t.set i a).get i = a := by cases i <;> rfl
theorem Eight.get_set_ne (t : Eight α) (a : α) : ∀ i j : Idx8, j ≠ i → (t.set i a).get j = t.get j := by
  intro i j h
  cases i <;> cases j <;> first | rfl | exact absurd rfl h
theorem Eight.get_set (t : Eight α) (i j : Idx8) (a : α) : (t.set i a).get j = if j = i then a else t.get j := by
  by_cases h : j = i
  · subst h; simp
  · simp [h, Eight.get_set_ne t a i j h]
theorem Eight.ext_get (t u : Eight α) (h : ∀ i, t.get i = u.get i) : t = u := by
  cases t; cases u
  simp only [Eight.mk.injEq]
  exact ⟨h .i0, h .i1, h .i2, h .i3, h .i4, h .i5, h .i6, h .i7⟩

/-- The names of the numbers 0..3 of the runner's counters (R135). -/
inductive Idx4 where
  | i0 | i1 | i2 | i3
  deriving DecidableEq, Repr

/-- One value for each of the numbers 0..3 of the runner's counters (R135). -/
structure Four (α : Type) where
  i0 : α
  i1 : α
  i2 : α
  i3 : α
  deriving DecidableEq, Repr

/-- All of them, in table order. -/
def Idx4.all : List Idx4 := [.i0, .i1, .i2, .i3]

/-- Table position. -/
def Idx4.pos : Idx4 → Nat
  | .i0 => 0
  | .i1 => 1
  | .i2 => 2
  | .i3 => 3

/-- The name at a table position. -/
def Idx4.at : Nat → Option Idx4
  | 0 => some .i0
  | 1 => some .i1
  | 2 => some .i2
  | 3 => some .i3
  | _ => none

def Four.get (t : Four α) : Idx4 → α
  | .i0 => t.i0
  | .i1 => t.i1
  | .i2 => t.i2
  | .i3 => t.i3

def Four.set (t : Four α) (i : Idx4) (a : α) : Four α :=
  match i with
  | .i0 => { t with i0 := a }
  | .i1 => { t with i1 := a }
  | .i2 => { t with i2 := a }
  | .i3 => { t with i3 := a }

/-- The table whose value at each name is given. -/
def Four.ofFn (f : Idx4 → α) : Four α := ⟨f .i0, f .i1, f .i2, f .i3⟩

/-- The same value everywhere. -/
def Four.const (a : α) : Four α := Four.ofFn fun _ => a

@[simp] theorem Four.get_ofFn (f : Idx4 → α) (i : Idx4) : (Four.ofFn f).get i = f i := by cases i <;> rfl
@[simp] theorem Four.get_const (a : α) (i : Idx4) : (Four.const a).get i = a := by cases i <;> rfl
@[simp] theorem Four.get_set_self (t : Four α) (i : Idx4) (a : α) : (t.set i a).get i = a := by cases i <;> rfl
theorem Four.get_set_ne (t : Four α) (a : α) : ∀ i j : Idx4, j ≠ i → (t.set i a).get j = t.get j := by
  intro i j h
  cases i <;> cases j <;> first | rfl | exact absurd rfl h
theorem Four.get_set (t : Four α) (i j : Idx4) (a : α) : (t.set i a).get j = if j = i then a else t.get j := by
  by_cases h : j = i
  · subst h; simp
  · simp [h, Four.get_set_ne t a i j h]
theorem Four.ext_get (t u : Four α) (h : ∀ i, t.get i = u.get i) : t = u := by
  cases t; cases u
  simp only [Four.mk.injEq]
  exact ⟨h .i0, h .i1, h .i2, h .i3⟩

/-- The names of the six rows of the performance table (R32). -/
inductive PerfIx where
  | r1 | r2 | r3 | r4 | r5 | r6
  deriving DecidableEq, Repr

/-- One value for each of the six rows of the performance table (R32). -/
structure PerfRows (α : Type) where
  r1 : α
  r2 : α
  r3 : α
  r4 : α
  r5 : α
  r6 : α
  deriving DecidableEq, Repr

/-- All of them, in table order. -/
def PerfIx.all : List PerfIx := [.r1, .r2, .r3, .r4, .r5, .r6]

/-- Table position. -/
def PerfIx.pos : PerfIx → Nat
  | .r1 => 0
  | .r2 => 1
  | .r3 => 2
  | .r4 => 3
  | .r5 => 4
  | .r6 => 5

/-- The name at a table position. -/
def PerfIx.at : Nat → Option PerfIx
  | 0 => some .r1
  | 1 => some .r2
  | 2 => some .r3
  | 3 => some .r4
  | 4 => some .r5
  | 5 => some .r6
  | _ => none

def PerfRows.get (t : PerfRows α) : PerfIx → α
  | .r1 => t.r1
  | .r2 => t.r2
  | .r3 => t.r3
  | .r4 => t.r4
  | .r5 => t.r5
  | .r6 => t.r6

def PerfRows.set (t : PerfRows α) (i : PerfIx) (a : α) : PerfRows α :=
  match i with
  | .r1 => { t with r1 := a }
  | .r2 => { t with r2 := a }
  | .r3 => { t with r3 := a }
  | .r4 => { t with r4 := a }
  | .r5 => { t with r5 := a }
  | .r6 => { t with r6 := a }

/-- The table whose value at each name is given. -/
def PerfRows.ofFn (f : PerfIx → α) : PerfRows α := ⟨f .r1, f .r2, f .r3, f .r4, f .r5, f .r6⟩

/-- The same value everywhere. -/
def PerfRows.const (a : α) : PerfRows α := PerfRows.ofFn fun _ => a

@[simp] theorem PerfRows.get_ofFn (f : PerfIx → α) (i : PerfIx) : (PerfRows.ofFn f).get i = f i := by cases i <;> rfl
@[simp] theorem PerfRows.get_const (a : α) (i : PerfIx) : (PerfRows.const a).get i = a := by cases i <;> rfl
@[simp] theorem PerfRows.get_set_self (t : PerfRows α) (i : PerfIx) (a : α) : (t.set i a).get i = a := by cases i <;> rfl
theorem PerfRows.get_set_ne (t : PerfRows α) (a : α) : ∀ i j : PerfIx, j ≠ i → (t.set i a).get j = t.get j := by
  intro i j h
  cases i <;> cases j <;> first | rfl | exact absurd rfl h
theorem PerfRows.get_set (t : PerfRows α) (i j : PerfIx) (a : α) : (t.set i a).get j = if j = i then a else t.get j := by
  by_cases h : j = i
  · subst h; simp
  · simp [h, PerfRows.get_set_ne t a i j h]
theorem PerfRows.ext_get (t u : PerfRows α) (h : ∀ i, t.get i = u.get i) : t = u := by
  cases t; cases u
  simp only [PerfRows.mk.injEq]
  exact ⟨h .r1, h .r2, h .r3, h .r4, h .r5, h .r6⟩

/-- The names of the stages 1..4 of the blower stage table (R44). -/
inductive BlowerIx where
  | s1 | s2 | s3 | s4
  deriving DecidableEq, Repr

/-- One value for each of the stages 1..4 of the blower stage table (R44). -/
structure BlowerStages (α : Type) where
  s1 : α
  s2 : α
  s3 : α
  s4 : α
  deriving DecidableEq, Repr

/-- All of them, in table order. -/
def BlowerIx.all : List BlowerIx := [.s1, .s2, .s3, .s4]

/-- Table position. -/
def BlowerIx.pos : BlowerIx → Nat
  | .s1 => 0
  | .s2 => 1
  | .s3 => 2
  | .s4 => 3

/-- The name at a table position. -/
def BlowerIx.at : Nat → Option BlowerIx
  | 0 => some .s1
  | 1 => some .s2
  | 2 => some .s3
  | 3 => some .s4
  | _ => none

def BlowerStages.get (t : BlowerStages α) : BlowerIx → α
  | .s1 => t.s1
  | .s2 => t.s2
  | .s3 => t.s3
  | .s4 => t.s4

def BlowerStages.set (t : BlowerStages α) (i : BlowerIx) (a : α) : BlowerStages α :=
  match i with
  | .s1 => { t with s1 := a }
  | .s2 => { t with s2 := a }
  | .s3 => { t with s3 := a }
  | .s4 => { t with s4 := a }

/-- The table whose value at each name is given. -/
def BlowerStages.ofFn (f : BlowerIx → α) : BlowerStages α := ⟨f .s1, f .s2, f .s3, f .s4⟩

/-- The same value everywhere. -/
def BlowerStages.const (a : α) : BlowerStages α := BlowerStages.ofFn fun _ => a

@[simp] theorem BlowerStages.get_ofFn (f : BlowerIx → α) (i : BlowerIx) : (BlowerStages.ofFn f).get i = f i := by cases i <;> rfl
@[simp] theorem BlowerStages.get_const (a : α) (i : BlowerIx) : (BlowerStages.const a).get i = a := by cases i <;> rfl
@[simp] theorem BlowerStages.get_set_self (t : BlowerStages α) (i : BlowerIx) (a : α) : (t.set i a).get i = a := by cases i <;> rfl
theorem BlowerStages.get_set_ne (t : BlowerStages α) (a : α) : ∀ i j : BlowerIx, j ≠ i → (t.set i a).get j = t.get j := by
  intro i j h
  cases i <;> cases j <;> first | rfl | exact absurd rfl h
theorem BlowerStages.get_set (t : BlowerStages α) (i j : BlowerIx) (a : α) : (t.set i a).get j = if j = i then a else t.get j := by
  by_cases h : j = i
  · subst h; simp
  · simp [h, BlowerStages.get_set_ne t a i j h]
theorem BlowerStages.ext_get (t u : BlowerStages α) (h : ∀ i, t.get i = u.get i) : t = u := by
  cases t; cases u
  simp only [BlowerStages.mk.injEq]
  exact ⟨h .s1, h .s2, h .s3, h .s4⟩

end Sys2Proof
end

