-- ==== Sys2Proof/Syntax.lean ====
section
/-! DEFINITION. The commands: one constructor for each row of spec/opcode_table.json, with the row's operands. -/

namespace Sys2Proof

/-- A home switch, as the part reads it (Table 6-3). -/
inductive Contact where
  | opened | closed
  deriving DecidableEq, Repr

/-- The commands of the part: every event that reaches it, one constructor per row of spec/opcode_table.json.

A REQUEST carries the tag and the payload bytes of its frame (Table 11-2, Table 11-4); the command is the step in which
the Body Link Port takes that frame (R170, log 1). A timer's expiry carries the door, deck, stepper or channel whose
timer it is. A record of the drive carries its fields (Table 5-3). -/
inductive Instr where
  -- reset input and body link
  | powerOn (switches : Steppers Contact)
  | frameReceived (line : List Byte)
  | unknownKindRequest (kind tag : Byte) (payload : List Byte)
  | replySend
  | noticeSend
  -- requests of the Body Link Port and the Zone Regulator
  | status (tag : Byte) (payload : List Byte)
  | zoneSet (tag : Byte) (payload : List Byte)
  | zoneRead (tag : Byte) (payload : List Byte)
  | vehicleState (tag : Byte) (payload : List Byte)
  | openDoorTimerExpiry (door : Door)
  -- Share Allocator
  | allowance (tag : Byte) (payload : List Byte)
  | validityTimerExpiry
  | allowanceAgeTick
  | shareRead (tag : Byte) (payload : List Byte)
  -- configuration tables
  | configWriteGains (tag : Byte) (payload : List Byte)
  | configWriteWeights (tag : Byte) (payload : List Byte)
  | configWriteKmax (tag : Byte) (payload : List Byte)
  | configWriteFlapLimits (tag : Byte) (payload : List Byte)
  | configWritePerformanceTable (tag : Byte) (payload : List Byte)
  | configWriteBlowerStageTable (tag : Byte) (payload : List Byte)
  | configWritePlantSettings (tag : Byte) (payload : List Byte)
  | configWriteStepTimes (tag : Byte) (payload : List Byte)
  | configWriteChannelConversion (tag : Byte) (payload : List Byte)
  | configRead (tag : Byte) (payload : List Byte)
  -- air policy
  | airPolicySetMinimum (tag : Byte) (payload : List Byte)
  | airPolicySetRate (tag : Byte) (payload : List Byte)
  | airPolicyStartHold (tag : Byte) (payload : List Byte)
  | airPolicyEndHold (tag : Byte) (payload : List Byte)
  | holdTimerExpiry
  -- Stage Runner
  | stagesWrite (tag : Byte) (payload : List Byte)
  | stagesRead (tag : Byte) (payload : List Byte)
  | entryWrite (tag : Byte) (payload : List Byte)
  | runnerStart (tag : Byte) (payload : List Byte)
  | runnerHold (tag : Byte) (payload : List Byte)
  | runnerResume (tag : Byte) (payload : List Byte)
  | runnerStop (tag : Byte) (payload : List Byte)
  | pollTimerExpiry
  -- Operation Slot
  | operationHome (tag : Byte) (payload : List Byte)
  | operationVerify (tag : Byte) (payload : List Byte)
  | operationDefrost (tag : Byte) (payload : List Byte)
  | operationPurge (tag : Byte) (payload : List Byte)
  | abortNow (tag : Byte) (payload : List Byte)
  | abortAtBoundary (tag : Byte) (payload : List Byte)
  -- Watch Unit
  | watchSet (tag : Byte) (payload : List Byte)
  | watchRead (tag : Byte) (payload : List Byte)
  | armWatchArm (tag : Byte) (payload : List Byte)
  | armWatchDisarm (tag : Byte) (payload : List Byte)
  -- Trace Queue
  | traceControlNone (tag : Byte) (payload : List Byte)
  | traceControlArm (tag : Byte) (payload : List Byte)
  | traceControlStart (tag : Byte) (payload : List Byte)
  | traceControlStop (tag : Byte) (payload : List Byte)
  | traceRead (tag : Byte) (payload : List Byte)
  | traceMark (tag : Byte) (payload : List Byte)
  -- notices, lockout, restart
  | noticeHold (tag : Byte) (payload : List Byte)
  | noticeRelease (tag : Byte) (payload : List Byte)
  | clearLockout (tag : Byte) (payload : List Byte)
  | restart (tag : Byte) (payload : List Byte)
  -- periods and plant timers
  | controlPeriodExpiry
  | antiShortCycleExpiry
  | dwellTimerExpiry
  | settleTimerExpiry
  | tripTimerExpiry
  | defrostTimerExpiry
  -- Drive Line
  | driveRecordDropped (line : List Byte)
  | driveStartAck
  | driveRunning
  | driveStatus (speed power : Nat) (temperature : Int)
  | driveFaultRecord (code : Nat)
  | driveStopped
  | ackTimerExpiry
  | runningTimerExpiry
  | retryTimerExpiry
  | refreshTimerExpiry
  | silenceTimerExpiry
  | stopTimerExpiry
  -- Actuator Driver
  | seekStep (stepper : Stepper)
  | reversalPauseExpiry (stepper : Stepper)
  | homeStep (stepper : Stepper)
  | verifyStep (stepper : Stepper)
  | homeSwitchClose (stepper : Stepper)
  | homeSwitchOpen (stepper : Stepper)
  | spinUpExpiry (deck : Deck)
  | overheatCutExpiry (deck : Deck)
  | afterRunExpiry (deck : Deck)
  -- Sensor Scanner
  | channelSample (channel : Channel) (raw : Nat)
  | lossTimerExpiry (channel : Channel)
  | partialFrameDiscarded
  deriving DecidableEq, Repr

end Sys2Proof
end

