-- ==== Sys2Proof/Config.lean ====
section
/-! DEFINITION. What the manual leaves to the part: free values (no body: nothing is proved of their value) and the
one bound the model sets. -/

namespace Sys2Proof

/-- FREE VALUE (log 13). The kind byte of the reply to a frame whose kind has the top bit set: Table 11-1 gives
request kind + 0x80, which does not fit one byte there. -/
opaque Config.replyKindTopBit : Byte → Byte

/-- FREE VALUE (log 13). The one-byte drive temperature of a SNAPSHOT made while no drive status is held: R180 gives
an absent code for one-byte fields with a range within 0..255 and for two-byte fields only. -/
opaque Config.absentTemperature : Byte

/-- DESIGN CHOICE (log 8). How many bursts may follow one another inside one command before the model calls the chain
endless. -/
def Config.burstChainLimit : Nat := 2 ^ 64

end Sys2Proof
end

