-- ==== Sys2Proof/Machine/State.lean ====
section
/-! DEFINITION. The state of the part: every piece of state the manual gives each block, as plain data, the value of each
after power-on (State.reset), and the reasons a step can stop. -/

namespace Sys2Proof.Machine

/-! ## Zone Regulator (R1, R9) -/

/-- Mode of a zone (Table 1-2). -/
inductive ZoneMode where
  | off | vent | regulate
  deriving DecidableEq, Repr

/-- Where a zone's measured value comes from (Table 1-5). -/
inductive SensorUse where
  | good | held | borrowed | blind
  deriving DecidableEq, Repr

/-- One zone record (R1, Table 1-2). The shortfall is signed: log 23. -/
structure ZoneRec where
  mode : ZoneMode
  setpoint : Int
  measured : Option Int
  sensorUse : SensorUse
  integrator : Int
  demand : Int
  weight : Nat
  occupancy : Nat
  doorFreeze : Bool
  inBand : Bool
  share : Nat
  shortfall : Int
  granted : Nat
  kmax : Nat
  flapMin : Nat
  flapMax : Nat
  flapUsable : Bool
  deriving DecidableEq, Repr

/-- The regulator gains (R9, Table 1-4). -/
structure Gains where
  kp : Nat
  ki : Nat
  imax : Nat
  deadband : Nat
  band : Nat
  deriving DecidableEq, Repr

/-- A door as the Zone Regulator holds it, with its open-door timer (R1, R18). -/
structure DoorRec where
  isOpen : Bool
  timer : Timer
  deriving DecidableEq, Repr

/-- State of the Zone Regulator (R1, R7). -/
structure Zrg where
  zones : Zones ZoneRec
  gains : Gains
  doors : Doors DoorRec
  periodTimer : Timer
  deriving DecidableEq, Repr

/-! ## Share Allocator (R22, R41) -/

/-- State of the allowance record (Table 2-2). -/
inductive AllowanceState where
  | fresh | expired
  deriving DecidableEq, Repr

/-- Plant direction (R29). -/
inductive Direction where
  | idle | heat | cool
  deriving DecidableEq, Repr

/-- Wanted mode (R30). -/
inductive WantedMode where
  | idle | heat | cool | dehum
  deriving DecidableEq, Repr

/-- A row of the performance table (R32, Table 2-4); the COPs in hundredths. -/
structure PerfRow where
  temp : Int
  heating : Nat
  cooling : Nat
  deriving DecidableEq, Repr

/-- A stage of the blower stage table (R44, Table 2-3). -/
structure BlowerRow where
  power : Nat
  airflow : Nat
  deriving DecidableEq, Repr

/-- A zone's part of the last share result (R41). -/
structure ZoneShare where
  share : Nat
  shortfall : Int
  grant : Nat
  deriving DecidableEq, Repr

/-- The last share result (R41). -/
structure ShareResult where
  time : Nat
  need : Nat
  a : Nat
  b : Nat
  pa : Nat
  pe : Nat
  qd : Nat
  direction : Direction
  wanted : WantedMode
  starvedCount : Nat
  hold : Bool
  stages : Decks Nat
  zones : Zones ZoneShare
  totalShortfall : Int
  heaterPower : Nat
  order : List Zone
  shed : Bool
  deriving DecidableEq, Repr

/-- State of the Share Allocator (R22, Table 2-2). -/
structure Sha where
  hostValue : Nat
  allowState : AllowanceState
  age : Nat
  inUse : Nat
  validityTimer : Timer
  runnerCap : Option Nat
  effective : Nat
  perf : PerfRows PerfRow
  blowers : BlowerStages BlowerRow
  direction : Direction
  idleCount : Nat
  flipCount : Nat
  starvedCount : Nat
  starvationHold : Bool
  command : Nat
  stages : Decks Nat
  outdoor : Option Int
  last : ShareResult
  deriving DecidableEq, Repr

/-! ## Air Quality Unit (R46) -/

/-- Trust in a channel's value (Table 7-2). -/
inductive Quality where
  | good | held | lost
  deriving DecidableEq, Repr

/-- A channel as a user block keeps it: last good value and last reported quality (R46, R61). -/
structure Reading where
  value : Option Int
  quality : Quality
  deriving DecidableEq, Repr

inductive HumidityState where
  | normal | dryNeeded
  deriving DecidableEq, Repr

inductive VentState where
  | normal | degraded
  deriving DecidableEq, Repr

/-- Why a recirculation hold ended (R54). -/
inductive HoldEnd where
  | limit | released | purge
  deriving DecidableEq, Repr

/-- State of the Air Quality Unit (R46, Table 3-2). -/
structure Aqu where
  policyMin : Nat
  rate : Nat
  supply : Nat
  co2 : Decks Reading
  boost : Nat
  rh : Reading
  humidity : HumidityState
  dryCount : Nat
  normalCount : Nat
  phi : Nat
  damper : Nat
  holdActive : Bool
  holdFirstStart : Nat
  holdTimer : Timer
  holdEnd : Option HoldEnd
  purgeActive : Bool
  purgeCount : Nat
  periodsRun : Nat
  vent : VentState
  deriving DecidableEq, Repr

/-! ## Plant Sequencer (R61, R81) -/

/-- Sequencer states (Table 4-2). -/
inductive PlantState where
  | stopped | equalize | shift | start | run | rampdown | tripped | lockout
  deriving DecidableEq, Repr

/-- Running modes (Table 4-3); NONE is `none` of an `Option`. -/
inductive RunMode where
  | heat | cool | dehum | defrost
  deriving DecidableEq, Repr

inductive Valve where
  | coolSide | heatSide
  deriving DecidableEq, Repr

/-- The equalization dwell timer: stopped, running with milliseconds left, or expired (Table 4-3). -/
inductive Dwell where
  | stopped | running (ms : Nat) | expired
  deriving DecidableEq, Repr

inductive VerifyWindow where
  | opened | satisfied | closed
  deriving DecidableEq, Repr

inductive DefrostMark where
  | none | auto | operation
  deriving DecidableEq, Repr

/-- Why a defrost ended (R75, R76). -/
inductive DefrostEnd where
  | cleared | timeout | aborted | tripped
  deriving DecidableEq, Repr

/-- Trip causes (Table 4-7). -/
inductive TripCause where
  | highDischarge | lowSuction | driveFault | driveSilent | driveStartFailed | modeNotConfirmed | eevFault | pressureLost
  deriving DecidableEq, Repr

/-- The plant fault record (R81). -/
structure FaultRecord where
  cause : Option TripCause
  state : PlantState
  mode : Option RunMode
  wanted : WantedMode
  driveCode : Nat
  time : Nat
  tripCount : Nat
  deriving DecidableEq, Repr

/-- The plant settings (R62, Table 4-4). -/
structure PlantSettings where
  dwell : Nat
  dischargeLimit : Nat
  suctionLimit : Nat
  verifyDifference : Nat
  defrostClear : Nat
  deriving DecidableEq, Repr

/-- State of the Plant Sequencer (R61, Table 4-3). -/
structure Psq where
  state : PlantState
  mode : Option RunMode
  wanted : WantedMode
  command : Nat
  valve : Valve
  fanOn : Bool
  startPending : Bool
  antiShortCycle : Timer
  dwell : Dwell
  settleTimer : Timer
  tripTimer : Timer
  verifyCount : Nat
  verifyWindow : VerifyWindow
  lowSuctionCount : Nat
  frost : Nat
  heatRunCount : Nat
  defrostMark : DefrostMark
  defrostTimer : Timer
  lastDefrostEnd : Option DefrostEnd
  restartMark : Bool
  pSuc : Reading
  pDis : Reading
  coil : Reading
  outdoor : Option Int
  eevTarget : Nat
  eevFaulted : Bool
  faultRecord : FaultRecord
  tripHistory : List Nat
  settings : PlantSettings
  deriving DecidableEq, Repr

/-! ## Drive Line (R87) -/

/-- Link states (Table 5-5). -/
inductive LinkState where
  | off | startingAck | startingRun | running | stopping | retryWait
  deriving DecidableEq, Repr

/-- Why the last failed start attempt failed (Table 5-4). -/
inductive FailureReason where
  | none | noAck | noRunning | fault | stopped | lateRunning | stoppedByPlant
  deriving DecidableEq, Repr

inductive LastStop where
  | none | confirmed | presumed
  deriving DecidableEq, Repr

/-- The last drive status, with the time base value at which it was taken (R95). -/
structure DriveStatus where
  speed : Nat
  power : Nat
  temperature : Int
  time : Nat
  deriving DecidableEq, Repr

/-- The last fault code, with the time base value at which it was taken (R96). -/
structure DriveFault where
  code : Nat
  time : Nat
  deriving DecidableEq, Repr

/-- A record the part sends on the Drive Line (Table 5-2). -/
inductive DriveTx where
  | start (power : Nat) | power (power : Nat) | stop
  deriving DecidableEq, Repr

/-- State of the Drive Line (R87, Table 5-4). -/
structure Dln where
  link : LinkState
  attempts : Nat
  initialPower : Nat
  powerSent : Nat
  failure : FailureReason
  compressorRunning : Bool
  lastStop : LastStop
  lastStatus : Option DriveStatus
  lastFault : Option DriveFault
  errorCount : Nat
  ackTimer : Timer
  runningTimer : Timer
  retryTimer : Timer
  refreshTimer : Timer
  silenceTimer : Timer
  stopTimer : Timer
  deriving DecidableEq, Repr

/-! ## Actuator Driver (R100, R112 to R116) -/

/-- Stepper states (Table 6-4). -/
inductive StepperState where
  | unhomed | idle | seeking | homing | verifying | fault
  deriving DecidableEq, Repr

inductive Motion where
  | up | down | none
  deriving DecidableEq, Repr

/-- What a stepper is doing in HOMING or VERIFYING (Table 6-3). -/
inductive RefKind where
  | none | home | operationVerify | automaticVerify
  deriving DecidableEq, Repr

/-- A stepper's own timer: it holds a step time or a reversal pause, in milliseconds (R100, R104). -/
inductive StepTimer where
  | stopped | step (ms : Nat) | pause (ms : Nat)
  deriving DecidableEq, Repr

/-- One stepper record (R100, Table 6-3). `takenOver` is the model's own (log 19): the verify in progress was begun as
an automatic one and taken over by an operation (R107), which R109 asks for. -/
structure StepperRec where
  state : StepperState
  position : Option Nat
  target : Nat
  faulted : Bool
  stepTime : Nat
  motion : Motion
  stepsMoved : Nat
  verifyDue : Bool
  slipCount : Nat
  refKind : RefKind
  prior : Nat
  count : Nat
  limit : Nat
  switch : Contact
  timer : StepTimer
  takenOver : Bool
  deriving DecidableEq, Repr

/-- The relay outputs a zone's heater steps drive: `count` outputs from output `first` upward (R112). -/
structure Relays where
  first : Nat
  count : Nat
  deriving DecidableEq, Repr

/-- What the Actuator Driver holds for one deck (R113 to R116). -/
structure DeckRec where
  stage : Nat
  running : Bool
  spinUp : Timer
  idleCount : Nat
  cutTimer : Timer
  afterRun : Timer
  supply : Quality
  deriving DecidableEq, Repr

/-- State of the Actuator Driver. -/
structure Act where
  steppers : Steppers StepperRec
  stepsOn : Zones Nat
  relays : Zones Relays
  decks : Decks DeckRec
  deriving DecidableEq, Repr

/-! ## Sensor Scanner (R119) and Watch Unit (R127) -/

/-- One channel record (R119, Table 7-2). -/
structure ChannelRec where
  quality : Quality
  value : Option Int
  clamped : Bool
  lastRaw : Option Nat
  offset : Int
  gain : Nat
  lossTimer : Timer
  faultCount : Nat
  deriving DecidableEq, Repr

inductive WatchDirection where
  | above | below
  deriving DecidableEq, Repr

inductive WatchState where
  | disarmed | armed | tripped
  deriving DecidableEq, Repr

/-- One watch record (R127, Table 7-5). -/
structure WatchRec where
  channel : Channel
  threshold : Int
  direction : WatchDirection
  hysteresis : Nat
  persistence : Nat
  notify : Bool
  traceStart : Bool
  traceStop : Bool
  autoRearm : Bool
  state : WatchState
  count : Nat
  tripCount : Nat
  tripValue : Option Int
  deriving DecidableEq, Repr

/-! ## Operation Slot (R173, R174) -/

inductive Source where
  | body | runner
  deriving DecidableEq, Repr

inductive OpKind where
  | home | verify | defrost | purge
  deriving DecidableEq, Repr

/-- How an operation ended (R174). -/
inductive EndState where
  | done | failed | aborted
  deriving DecidableEq, Repr

inductive OpState where
  | running | ended (e : EndState)
  deriving DecidableEq, Repr

/-- An operation's kind with its argument (Table 10-3). -/
inductive OpWork where
  | home (mask : BitVec 8) | verify (mask : BitVec 8) | defrost | purge (periods : Nat)
  deriving DecidableEq, Repr

/-- The detail of the status record (Table 10-3): homed and faulted mask, slip and fault mask, end cause, periods run. -/
inductive Detail where
  | zero | masks (first second : BitVec 8) | cause (c : DefrostEnd) | periods (n : Nat)
  deriving DecidableEq, Repr

/-- The operation the slot holds (R173); `inHand` is the stepper handed to the Actuator Driver. -/
structure Operation where
  work : OpWork
  source : Source
  abortPending : Bool
  inHand : Option Stepper
  deriving DecidableEq, Repr

/-- The operation status record (R173, R174). -/
structure OpStatus where
  kind : Option OpKind
  source : Option Source
  state : OpState
  detail : Detail
  deriving DecidableEq, Repr

/-- State of the Operation Slot. -/
structure Ops where
  slot : Option Operation
  status : OpStatus
  deriving DecidableEq, Repr

/-! ## Stage Runner (R135, R138, R181) -/

/-- A stage as it travels and is stored: 8 bytes (R181). -/
structure StageBytes where
  b0 : Byte
  b1 : Byte
  b2 : Byte
  b3 : Byte
  b4 : Byte
  b5 : Byte
  b6 : Byte
  b7 : Byte
  deriving DecidableEq, Repr

/-- Outcome of a stage's last completion (Table 8-2). -/
inductive StageOutcome where
  | none | done | taken | notTaken | timedOut | failed
  deriving DecidableEq, Repr

/-- One place of the stage store (R135). -/
structure StageRec where
  bytes : StageBytes
  outcome : StageOutcome
  passes : Nat
  deriving DecidableEq, Repr

inductive RunnerState where
  | idle | running | waiting | suspended | stopped
  deriving DecidableEq, Repr

inductive WaitingOn where
  | none | condition | slot | operationEnd
  deriving DecidableEq, Repr

/-- The operation the current OPERATE placed, and how it ended (Table 8-5). -/
inductive Placed where
  | none | placed | ended (e : EndState)
  deriving DecidableEq, Repr

inductive StopCause where
  | none | done | runaway | stageUnavailable | badStage | stoppedByBody
  deriving DecidableEq, Repr

inductive StopIndex where
  | none | at (i : Nat) | endOfStore
  deriving DecidableEq, Repr

/-- The resume point (R152). -/
structure ResumePoint where
  index : Nat
  secondsLeft : Option Nat
  placed : Placed
  deriving DecidableEq, Repr

/-- The runner record (R138, Table 8-5) and its poll timer (R146). -/
structure Runner where
  state : RunnerState
  list : Option Idx8
  suspendOnTrip : Bool
  current : Option Nat
  burstCount : Nat
  waitingOn : WaitingOn
  secondsLeft : Option Nat
  pollPhase : Nat
  placed : Placed
  resume : Option ResumePoint
  stopCause : StopCause
  stopIndex : StopIndex
  pollTimer : Timer
  deriving DecidableEq, Repr

/-- State of the Stage Runner (R135, R138). The store lists the places that differ from an EMPTY one, by rising index
(Machine/Store.lean). -/
structure Str where
  store : List (Nat × StageRec)
  entries : Eight (Option Nat)
  counters : Four Nat
  runner : Runner
  deriving DecidableEq, Repr

/-! ## Trace Queue (R158, R182) -/

/-- Causes of a PLANT record (Table 4-8). -/
inductive PlantCause where
  | wanted | defrostStart | stoppedReport | decision | settled | started
  | trip (c : TripCause)
  | tripExpired | lockoutCleared | restart
  | defrostEnd (c : DefrostEnd)
  deriving DecidableEq, Repr

/-- Events of an ACTUATOR record (R117). -/
inductive ActEvent where
  | homed | verified | slip | fault
  deriving DecidableEq, Repr

/-- A zone as a SNAPSHOT shows it (Table 9-3). -/
structure SnapZone where
  mode : ZoneMode
  setpoint : Int
  measured : Option Int
  sensorUse : SensorUse
  demand : Int
  deriving DecidableEq, Repr

/-- The content of a trace record, by kind (Table 9-3). -/
inductive TraceBody where
  | snapshot (zones : Zones SnapZone) (direction : Direction) (state : PlantState) (mode : Option RunMode) (a frost : Nat)
      (drive : Option DriveStatus)
  | plant (state : PlantState) (mode : Option RunMode) (valve : Valve) (cause : PlantCause)
  | actuator (stepper : Stepper) (event : ActEvent) (prior : Option Nat) (count : Nat)
  | watch (watch : Idx8) (channel : Channel) (value : Int) (tripCount : Nat)
  | mark (value : Nat) (source : Source)
  | period (need a b pe qd : Nat) (totalShortfall : Int) (heaterPower : Nat)
  | zone (zone : Zone) (share : Nat) (shortfall : Int) (grant target : Nat)
  | stage (index : Nat) (outcome : StageOutcome)
  | gap (dropped first : Nat)
  deriving DecidableEq, Repr

/-- A trace record: its time stamp and its content (R158). -/
structure TraceRec where
  stamp : Nat
  body : TraceBody
  deriving DecidableEq, Repr

/-- Capture states (Table 9-4). -/
inductive Capture where
  | off | armed | capturing | fullStopped
  deriving DecidableEq, Repr

inductive Policy where
  | discard | complete
  deriving DecidableEq, Repr

/-- State of the Trace Queue (R158, Table 9-2). -/
structure Trq where
  queue : List TraceRec
  capture : Capture
  level : Nat
  policy : Policy
  snapshotPeriod : Nat
  periodCount : Nat
  dropCount : Nat
  firstDrop : Option Nat
  deriving DecidableEq, Repr

/-! ## Body Link Port (R168, R176) -/

/-- A body-link frame without its start byte and check (Table 11-1). -/
structure Frame where
  kind : Byte
  tag : Byte
  payload : List Byte
  deriving DecidableEq, Repr

inductive ResetCause where
  | powerOn | warmRestart
  deriving DecidableEq, Repr

structure OperationEndNotice where
  kind : OpKind
  source : Source
  state : EndState
  detail : Detail
  deriving DecidableEq, Repr

structure RunnerEndNotice where
  list : Option Idx8
  cause : StopCause
  index : StopIndex
  deriving DecidableEq, Repr

structure StageNotice where
  value : Nat
  index : Nat
  deriving DecidableEq, Repr

structure WatchTripNotice where
  watch : Idx8
  channel : Channel
  value : Int
  tripCount : Nat
  states : Eight WatchState
  deriving DecidableEq, Repr

structure SensorStateNotice where
  channel : Channel
  quality : Quality
  value : Option Int
  qualities : Channels Quality
  deriving DecidableEq, Repr

inductive StepperFaultCause where
  | homeLimit | verifyLimit
  deriving DecidableEq, Repr

structure ActuatorFaultNotice where
  stepper : Stepper
  cause : StepperFaultCause
  count : Nat
  deriving DecidableEq, Repr

inductive TraceStateCause where
  | watchStart | watchStop | full
  deriving DecidableEq, Repr

structure TraceStateNotice where
  state : Capture
  cause : TraceStateCause
  watch : Option Idx8
  records : Nat
  dropCount : Nat
  deriving DecidableEq, Repr

structure HoldEndNotice where
  cause : HoldEnd
  length : Nat
  deriving DecidableEq, Repr

/-- A notice of the pending set: its content and its merge count (R176). -/
structure PendingNotice (α : Type) where
  content : α
  merged : Nat
  deriving DecidableEq, Repr

/-- The pending notice set: at most one notice of each kind, the kinds in kind order (Table 10-4, R176). -/
structure NoticeSet where
  started : Option (PendingNotice ResetCause)
  operationEnd : Option (PendingNotice OperationEndNotice)
  runnerEnd : Option (PendingNotice RunnerEndNotice)
  stageNotice : Option (PendingNotice StageNotice)
  watchTrip : Option (PendingNotice WatchTripNotice)
  plantTrip : Option (PendingNotice FaultRecord)
  lockout : Option (PendingNotice Unit)
  allowanceExpired : Option (PendingNotice Nat)
  sensorState : Option (PendingNotice SensorStateNotice)
  actuatorFault : Option (PendingNotice ActuatorFaultNotice)
  traceState : Option (PendingNotice TraceStateNotice)
  recircHoldEnd : Option (PendingNotice HoldEndNotice)
  deriving DecidableEq, Repr

/-- State of the Body Link Port (R168, Table 10-1). -/
structure Blp where
  queue : List Frame
  linkErrors : Nat
  reply : Option Frame
  notices : NoticeSet
  holdFlag : Bool
  deriving DecidableEq, Repr

/-! ## The whole part -/

/-- The model's own (log 7): what is on its way to the Stage Runner inside one command, the end of an operation it
awaits (R174) and the plant's trip event (R80). Both are taken before the command ends. -/
structure Mail where
  opEnd : Option EndState
  trip : Bool
  deriving DecidableEq, Repr

/-- The state of the ODV-318. `pending`, `mail`, `bodyOut` and `driveOut` are the model's own (log 5, log 7): `bodyOut`
and `driveOut` are the bytes the part has put on its two lines, oldest first. -/
structure State where
  pending : List Instr
  time : Nat
  zrg : Zrg
  sha : Sha
  aqu : Aqu
  psq : Psq
  dln : Dln
  act : Act
  ssc : Channels ChannelRec
  wch : Eight WatchRec
  str : Str
  trq : Trq
  blp : Blp
  ops : Ops
  mail : Mail
  bodyOut : List Byte
  driveOut : List Byte
  deriving DecidableEq, Repr

/-- Why the machine stops with a fault. -/
inductive Fault where
  /-- Raised by `settle` (Machine/Runner.lean), in any command that reports the end of an operation to the Stage Runner,
  when more than `Config.burstChainLimit` bursts follow one another in the moment of one command: a list whose
  operations end as they are placed, in an endless loop. The manual describes no end of such a step (R138, R148, R150).
  SAFE (log 8): the model stops where the part would never reach its next event. -/
  | endlessBurst
  deriving DecidableEq, Repr

/-- Why a step is refused. -/
inductive Refusal where
  /-- A command that has no meaning in the model yet; no arm of `exec` answers it now. SAFE. -/
  | notModelled (mnemonic : String)
  deriving DecidableEq, Repr

/-! ## Values after power-on -/

/-- A zone after power-on (Table 1-2): its weight and its fitted heater steps. -/
def ZoneRec.reset (weight kmax : Nat) : ZoneRec where
  mode := .off
  setpoint := 220
  measured := none
  sensorUse := .blind
  integrator := 0
  demand := 0
  weight := weight
  occupancy := 0
  doorFreeze := false
  inBand := false
  share := 0
  shortfall := 0
  granted := 0
  kmax := kmax
  flapMin := 20
  flapMax := 200
  flapUsable := true

/-- Table 1-4. -/
def Gains.reset : Gains := ⟨25, 4, 600, 2, 5⟩

/-- R1, R7: doors closed, open-door timers stopped, the first control period 2 s after power-on. -/
def Zrg.reset : Zrg where
  zones := ⟨.reset 3 2, .reset 3 2, .reset 3 2, .reset 2 1, .reset 2 1, .reset 1 4⟩
  gains := .reset
  doors := .const ⟨false, none⟩
  periodTimer := Timer.seconds 2

/-- R22: "all values 0; service order empty; shed mark clear". -/
def ShareResult.reset : ShareResult where
  time := 0
  need := 0
  a := 0
  b := 0
  pa := 0
  pe := 0
  qd := 0
  direction := .idle
  wanted := .idle
  starvedCount := 0
  hold := false
  stages := .const 0
  zones := .const ⟨0, 0, 0⟩
  totalShortfall := 0
  heaterPower := 0
  order := []
  shed := false

/-- Table 2-4. -/
def perfReset : PerfRows PerfRow :=
  ⟨⟨-200, 180, 500⟩, ⟨-100, 220, 480⟩, ⟨0, 270, 450⟩, ⟨100, 320, 400⟩, ⟨200, 360, 330⟩, ⟨350, 400, 240⟩⟩

/-- Table 2-3. -/
def blowersReset : BlowerStages BlowerRow := ⟨⟨180, 250⟩, ⟨350, 450⟩, ⟨600, 650⟩, ⟨900, 850⟩⟩

/-- Table 2-2. -/
def Sha.reset : Sha where
  hostValue := 0
  allowState := .expired
  age := 65535
  inUse := 0
  validityTimer := none
  runnerCap := none
  effective := 0
  perf := perfReset
  blowers := blowersReset
  direction := .idle
  idleCount := 0
  flipCount := 0
  starvedCount := 0
  starvationHold := false
  command := 0
  stages := .const 0
  outdoor := none
  last := .reset

def Reading.reset : Reading := ⟨none, .lost⟩

/-- Table 3-2. `holdEnd` NONE is a DESIGN CHOICE (log 4). -/
def Aqu.reset : Aqu where
  policyMin := 150
  rate := 8
  supply := 0
  co2 := .const .reset
  boost := 0
  rh := .reset
  humidity := .normal
  dryCount := 0
  normalCount := 0
  phi := 150
  damper := 60
  holdActive := false
  holdFirstStart := 0
  holdTimer := none
  holdEnd := none
  purgeActive := false
  purgeCount := 0
  periodsRun := 0
  vent := .normal

/-- Table 4-3: cause NONE, all other fields 0 (the enumerations at their code 0, log 12). -/
def FaultRecord.reset : FaultRecord := ⟨none, .stopped, some .heat, .idle, 0, 0, 0⟩

/-- Table 4-4. -/
def PlantSettings.reset : PlantSettings := ⟨60, 280, 8, 30, 120⟩

/-- Table 4-3. -/
def Psq.reset : Psq where
  state := .stopped
  mode := none
  wanted := .idle
  command := 0
  valve := .coolSide
  fanOn := false
  startPending := false
  antiShortCycle := Timer.seconds 180
  dwell := .stopped
  settleTimer := none
  tripTimer := none
  verifyCount := 0
  verifyWindow := .closed
  lowSuctionCount := 0
  frost := 0
  heatRunCount := 0
  defrostMark := .none
  defrostTimer := none
  lastDefrostEnd := none
  restartMark := false
  pSuc := .reset
  pDis := .reset
  coil := .reset
  outdoor := none
  eevTarget := 100
  eevFaulted := false
  faultRecord := .reset
  tripHistory := []
  settings := .reset

/-- Table 5-4. -/
def Dln.reset : Dln where
  link := .off
  attempts := 0
  initialPower := 0
  powerSent := 0
  failure := .none
  compressorRunning := false
  lastStop := .none
  lastStatus := none
  lastFault := none
  errorCount := 0
  ackTimer := none
  runningTimer := none
  retryTimer := none
  refreshTimer := none
  silenceTimer := none
  stopTimer := none

/-- A stepper after power-on (Table 6-2, Table 6-3), its home switch as read. -/
def StepperRec.reset (target stepTime : Nat) (switch : Contact) : StepperRec where
  state := .unhomed
  position := none
  target := target
  faulted := false
  stepTime := stepTime
  motion := .none
  stepsMoved := 0
  verifyDue := false
  slipCount := 0
  refKind := .none
  prior := 0
  count := 0
  limit := 0
  switch := switch
  timer := .stopped
  takenOver := false

/-- Table 6-2: targets and step times after power-on. -/
def steppersReset (sw : Steppers Contact) : Steppers StepperRec :=
  ⟨.reset 20 10 sw.fU1, .reset 20 10 sw.fU2, .reset 20 10 sw.fU3, .reset 20 10 sw.fL1, .reset 20 10 sw.fL2,
    .reset 20 10 sw.fE, .reset 60 20 sw.fad, .reset 100 5 sw.eev⟩

/-- R113 to R116. -/
def DeckRec.reset : DeckRec := ⟨0, false, none, 0, none, none, .lost⟩

/-- R100, R112 to R116. No relay output is assigned before the first grants (DESIGN CHOICE, log 11). -/
def Act.reset (sw : Steppers Contact) : Act := ⟨steppersReset sw, .const 0, .const ⟨0, 0⟩, .const .reset⟩

/-- A channel after power-on (Table 7-2). -/
def ChannelRec.reset (offset : Int) (gain : Nat) : ChannelRec := ⟨.lost, none, false, none, offset, gain, none, 0⟩

/-- Table 7-1: default offset and gain of each channel. -/
def channelsReset : Channels ChannelRec :=
  ⟨.reset (-400) 1250, .reset (-400) 1250, .reset (-400) 1250, .reset (-400) 1250, .reset (-400) 1250, .reset (-400) 1250,
    .reset (-400) 1250, .reset (-400) 1250, .reset (-400) 1250, .reset (-400) 1250, .reset (-400) 1250,
    .reset 0 400, .reset 0 400, .reset 0 1000, .reset 0 5000, .reset 0 5000⟩

/-- Table 7-5. -/
def WatchRec.reset : WatchRec where
  channel := .tOut
  threshold := 0
  direction := .above
  hysteresis := 0
  persistence := 1
  notify := false
  traceStart := false
  traceStop := false
  autoRearm := false
  state := .disarmed
  count := 0
  tripCount := 0
  tripValue := none

/-- Table 8-5. -/
def Runner.reset : Runner where
  state := .idle
  list := none
  suspendOnTrip := false
  current := none
  burstCount := 0
  waitingOn := .none
  secondsLeft := none
  pollPhase := 0
  placed := .none
  resume := none
  stopCause := .none
  stopIndex := .none
  pollTimer := none

/-- An EMPTY place; its seven field bytes are 0 (DESIGN CHOICE, log 10). -/
def StageBytes.empty : StageBytes := ⟨0, 0, 0, 0, 0, 0, 0, 0⟩

/-- What a place holds after power-on (Table 8-2). -/
def StageRec.reset : StageRec := ⟨.empty, .none, 0⟩

/-- Table 8-2. -/
def Str.reset : Str := ⟨[], .const none, .const 0, .reset⟩

/-- Table 9-2. -/
def Trq.reset : Trq := ⟨[], .off, 1, .discard, 16, 0, 0, none⟩

def NoticeSet.empty : NoticeSet := ⟨none, none, none, none, none, none, none, none, none, none, none, none⟩

/-- Table 10-1: STARTED with cause POWER_ON only (R172). -/
def Blp.reset : Blp := ⟨[], 0, none, { NoticeSet.empty with started := some ⟨.powerOn, 0⟩ }, false⟩

/-- R174: "kind NONE, source NONE, state DONE, detail 0". -/
def OpStatus.reset : OpStatus := ⟨none, none, .ended .done, .zero⟩

def Ops.reset : Ops := ⟨none, .reset⟩

def Mail.empty : Mail := ⟨none, false⟩

/-- The part after power-on with its home switches read as `sw` (R172). -/
def State.afterPowerOn (sw : Steppers Contact) : State where
  pending := []
  time := 0
  zrg := .reset
  sha := .reset
  aqu := .reset
  psq := .reset
  dln := .reset
  act := .reset sw
  ssc := channelsReset
  wch := .const .reset
  str := .reset
  trq := .reset
  blp := .reset
  ops := .reset
  mail := .empty
  bodyOut := []
  driveOut := []

/-- The part right after reset, its home switches read OPEN (DESIGN CHOICE, log 9: R100 gives "as read at power-on"). -/
def State.reset : State := .afterPowerOn (.const .opened)

end Sys2Proof.Machine
end

