-- ==== Sys2Proof/Machine/Flags.lean ====
section
/-! DEFINITION. Clamping, rounding and saturating arithmetic (00, Section 5.3), each clamp with the mark that it changed
its value, and the result codes of replies (R171, Table 11-3). -/

namespace Sys2Proof.Machine

/-- "Clamped to a..b" (00, Section 5.3). -/
def clampNat (lo hi x : Nat) : Nat := if x < lo then lo else if hi < x then hi else x

/-- "Clamped to a..b" (00, Section 5.3). -/
def clampInt (lo hi x : Int) : Int := if x < lo then lo else if hi < x then hi else x

/-- A saturating increment. -/
def satInc (hi x : Nat) : Nat := if x < hi then x + 1 else hi

/-- The smallest integer not less than a / b ("ceil"). -/
def ceilDiv (a b : Nat) : Nat := (a + (b - 1)) / b

/-- The nearest step time of 5, 10, 20 and 40, a value halfway between two going to the longer (R101). -/
def roundStepTime (x : Nat) : Nat := if 2 * x < 15 then 5 else if x < 15 then 10 else if x < 30 then 20 else 40

/-- The nearest snapshot period of 8, 16, 32 and 64, a value halfway between two going to the longer (R163). -/
def roundSnapshotPeriod (x : Nat) : Nat := if x < 12 then 8 else if x < 24 then 16 else if x < 48 then 32 else 64

/-- Result codes (Table 11-3). -/
inductive ResultCode where
  | done | doneClamped | unknownKind | badLength | badIndex | badTable | slotBusy | runnerActive | noList | notApplicable
  deriving DecidableEq, Repr

/-- Table 11-3. -/
def ResultCode.code : ResultCode → Nat
  | .done => 0
  | .doneClamped => 1
  | .unknownKind => 2
  | .badLength => 3
  | .badIndex => 4
  | .badTable => 5
  | .slotBusy => 6
  | .runnerActive => 7
  | .noList => 8
  | .notApplicable => 9

/-- DONE_CLAMPED when a value was clamped or rounded, DONE otherwise (R171). -/
def doneIf (clamped : Bool) : ResultCode := if clamped then .doneClamped else .done

/-- Whether a code lets the reply carry its fields (R170, R179). -/
def ResultCode.accepted : ResultCode → Bool
  | .done | .doneClamped => true
  | _ => false

end Sys2Proof.Machine
end

