-- ==== Sys2Proof/Machine/Operands.lean ====
section
/-! DEFINITION. The fields of payloads and records: how numbers lie in bytes (most significant byte first, two's
complement), the codes of the enumerations (R179, R180), and the reading of fields by their byte offset (Table 11-4). -/

namespace Sys2Proof.Machine

/-! ## Writing fields -/

/-- One byte. -/
def u8 (n : Nat) : List Byte := [BitVec.ofNat 8 n]

/-- Two bytes, most significant first (11). -/
def u16 (n : Nat) : List Byte := [BitVec.ofNat 8 (n / 256), BitVec.ofNat 8 n]

/-- Four bytes, most significant first. -/
def u32 (n : Nat) : List Byte := u16 (n / 65536) ++ u16 n

/-- Two bytes, two's complement. -/
def i16 (z : Int) : List Byte := u16 (z.emod 65536).toNat

/-- A flag: 0 for no or clear, 1 for yes or set (R180). -/
def flag (b : Bool) : List Byte := u8 (if b then 1 else 0)

/-- One byte, 0xFF for absent (R180). -/
def u8? : Option Nat → List Byte
  | some n => u8 n
  | none => u8 0xFF

/-- Two bytes unsigned, 0xFFFF for absent (R179). -/
def u16? : Option Nat → List Byte
  | some n => u16 n
  | none => u16 0xFFFF

/-- Two bytes signed, 0x8000 for absent (R179). -/
def i16? : Option Int → List Byte
  | some z => i16 z
  | none => u16 0x8000

/-- Four bytes, 0xFFFFFFFF for absent (R180). -/
def u32? : Option Nat → List Byte
  | some n => u32 n
  | none => u32 0xFFFFFFFF

/-- The time left on a timer: two bytes, in units of 100 ms rounded up, 0xFFFF while stopped or expired (R180). -/
def timeLeft (t : Timer) : List Byte := u16? (t.map fun ms => ceilDiv ms 100)

/-! ## Reading fields -/

/-- The byte at an offset; offsets past the end read 0 (a length that is too short is refused before, R179). -/
def byteAt (p : List Byte) (i : Nat) : Nat := (p.getD i 0).toNat

/-- Two bytes at an offset, unsigned. -/
def wordAt (p : List Byte) (i : Nat) : Nat := byteAt p i * 256 + byteAt p (i + 1)

/-- Two's complement reading of a 16-bit number. -/
def signed16 (n : Nat) : Int := if n < 32768 then (n : Int) else (n : Int) - 65536

/-- Two bytes at an offset, signed. -/
def intAt (p : List Byte) (i : Nat) : Int := signed16 (wordAt p i)

/-- A flag byte: a value other than 0 or 1 is taken as yes (R180). -/
def flagAt (p : List Byte) (i : Nat) : Bool := byteAt p i != 0

/-- Bit n of a byte. -/
def bitOf (b n : Nat) : Bool := b.testBit n

/-! ## Codes of enumerations (R180: 0, 1, 2 … in the order in which the defining table or rule lists the values) -/

def ZoneMode.code : ZoneMode → Nat
  | .off => 0
  | .vent => 1
  | .regulate => 2

def SensorUse.code : SensorUse → Nat
  | .good => 0
  | .held => 1
  | .borrowed => 2
  | .blind => 3

def AllowanceState.code : AllowanceState → Nat
  | .fresh => 0
  | .expired => 1

def Direction.code : Direction → Nat
  | .idle => 0
  | .heat => 1
  | .cool => 2

def WantedMode.code : WantedMode → Nat
  | .idle => 0
  | .heat => 1
  | .cool => 2
  | .dehum => 3

def Quality.code : Quality → Nat
  | .good => 0
  | .held => 1
  | .lost => 2

def HumidityState.code : HumidityState → Nat
  | .normal => 0
  | .dryNeeded => 1

def VentState.code : VentState → Nat
  | .normal => 0
  | .degraded => 1

def HoldEnd.code : HoldEnd → Nat
  | .limit => 0
  | .released => 1
  | .purge => 2

def PlantState.code : PlantState → Nat
  | .stopped => 0
  | .equalize => 1
  | .shift => 2
  | .start => 3
  | .run => 4
  | .rampdown => 5
  | .tripped => 6
  | .lockout => 7

/-- Table 4-3 lists HEAT, COOL, DEHUM, DEFROST, or NONE. -/
def runModeCode : Option RunMode → Nat
  | some .heat => 0
  | some .cool => 1
  | some .dehum => 2
  | some .defrost => 3
  | none => 4

def Valve.code : Valve → Nat
  | .coolSide => 0
  | .heatSide => 1

/-- Table 4-3 lists ON, OFF. -/
def fanCode (on : Bool) : Nat := if on then 0 else 1

def DefrostMark.code : DefrostMark → Nat
  | .none => 0
  | .auto => 1
  | .operation => 2

def DefrostEnd.code : DefrostEnd → Nat
  | .cleared => 0
  | .timeout => 1
  | .aborted => 2
  | .tripped => 3

/-- Table 4-3 lists CLEARED, TIMEOUT, ABORTED, TRIPPED, or NONE. -/
def defrostEndCode : Option DefrostEnd → Nat
  | some c => c.code
  | none => 4

def TripCause.code : TripCause → Nat
  | .highDischarge => 0
  | .lowSuction => 1
  | .driveFault => 2
  | .driveSilent => 3
  | .driveStartFailed => 4
  | .modeNotConfirmed => 5
  | .eevFault => 6
  | .pressureLost => 7

/-- R81: a cause of Table 4-7, or NONE; "cause NONE, all other fields 0" (log 12). -/
def tripCauseCode : Option TripCause → Nat
  | some c => c.code
  | none => 8

/-- Table 4-8, the trip causes standing where it says "the trip cause", in Table 4-7 order (log 12). -/
def PlantCause.code : PlantCause → Nat
  | .wanted => 0
  | .defrostStart => 1
  | .stoppedReport => 2
  | .decision => 3
  | .settled => 4
  | .started => 5
  | .trip c => 6 + c.code
  | .tripExpired => 14
  | .lockoutCleared => 15
  | .restart => 16
  | .defrostEnd c => 17 + c.code

def LinkState.code : LinkState → Nat
  | .off => 0
  | .startingAck => 1
  | .startingRun => 2
  | .running => 3
  | .stopping => 4
  | .retryWait => 5

def FailureReason.code : FailureReason → Nat
  | .none => 0
  | .noAck => 1
  | .noRunning => 2
  | .fault => 3
  | .stopped => 4
  | .lateRunning => 5
  | .stoppedByPlant => 6

def LastStop.code : LastStop → Nat
  | .none => 0
  | .confirmed => 1
  | .presumed => 2

def StepperState.code : StepperState → Nat
  | .unhomed => 0
  | .idle => 1
  | .seeking => 2
  | .homing => 3
  | .verifying => 4
  | .fault => 5

def WatchDirection.code : WatchDirection → Nat
  | .above => 0
  | .below => 1

def WatchState.code : WatchState → Nat
  | .disarmed => 0
  | .armed => 1
  | .tripped => 2

/-- WATCH SET's action bits (Table 11-4). -/
def WatchRec.actionCode (w : WatchRec) : Nat :=
  (if w.notify then 1 else 0) + (if w.traceStart then 2 else 0) + (if w.traceStop then 4 else 0)

/-- BODY, RUNNER (R173), then NONE (log 12). -/
def sourceCode : Option Source → Nat
  | some .body => 0
  | some .runner => 1
  | none => 2

def Source.code (s : Source) : Nat := sourceCode (some s)

/-- OPERATION's kind codes (Table 11-4); NONE is 0 (log 12). -/
def opKindCode : Option OpKind → Nat
  | none => 0
  | some .home => 1
  | some .verify => 2
  | some .defrost => 3
  | some .purge => 4

/-- RUNNING, DONE, FAILED, ABORTED (log 12). -/
def OpState.code : OpState → Nat
  | .running => 0
  | .ended .done => 1
  | .ended .failed => 2
  | .ended .aborted => 3

/-- The detail in two bytes: the two masks in the order of Table 10-3, or a number (log 12). -/
def Detail.bytes : Detail → List Byte
  | .zero => u16 0
  | .masks a b => [a, b]
  | .cause c => u16 c.code
  | .periods n => u16 n

def StageOutcome.code : StageOutcome → Nat
  | .none => 0
  | .done => 1
  | .taken => 2
  | .notTaken => 3
  | .timedOut => 4
  | .failed => 5

def RunnerState.code : RunnerState → Nat
  | .idle => 0
  | .running => 1
  | .waiting => 2
  | .suspended => 3
  | .stopped => 4

def WaitingOn.code : WaitingOn → Nat
  | .none => 0
  | .condition => 1
  | .slot => 2
  | .operationEnd => 3

def StopCause.code : StopCause → Nat
  | .none => 0
  | .done => 1
  | .runaway => 2
  | .stageUnavailable => 3
  | .badStage => 4
  | .stoppedByBody => 5

/-- RUNNER END: 0xFE END OF STORE, 0xFF NONE (11). -/
def StopIndex.code : StopIndex → Nat
  | .at i => i
  | .endOfStore => 0xFE
  | .none => 0xFF

def ActEvent.code : ActEvent → Nat
  | .homed => 0
  | .verified => 1
  | .slip => 2
  | .fault => 3

def Capture.code : Capture → Nat
  | .off => 0
  | .armed => 1
  | .capturing => 2
  | .fullStopped => 3

def Policy.code : Policy → Nat
  | .discard => 0
  | .complete => 1

/-- STARTED: 0 POWER_ON, 1 WARM_RESTART (11). -/
def ResetCause.code : ResetCause → Nat
  | .powerOn => 0
  | .warmRestart => 1

def StepperFaultCause.code : StepperFaultCause → Nat
  | .homeLimit => 0
  | .verifyLimit => 1

def TraceStateCause.code : TraceStateCause → Nat
  | .watchStart => 0
  | .watchStop => 1
  | .full => 2

/-- The eight bytes of a stored stage (R181). -/
def StageBytes.toList (b : StageBytes) : List Byte := [b.b0, b.b1, b.b2, b.b3, b.b4, b.b5, b.b6, b.b7]

/-- The stage whose eight bytes lie at an offset of a payload. -/
def stageAt (p : List Byte) (i : Nat) : StageBytes :=
  ⟨p.getD i 0, p.getD (i + 1) 0, p.getD (i + 2) 0, p.getD (i + 3) 0, p.getD (i + 4) 0, p.getD (i + 5) 0,
    p.getD (i + 6) 0, p.getD (i + 7) 0⟩

/-- The zones a mask names, in table order (R180: table position n in bit n). -/
def maskZones (m : Nat) : List Zone := Zone.all.filter fun z => bitOf m z.pos

/-- A zone mask that names some zone and no position beyond 5 (R2). -/
def zoneMaskOk (m : Nat) : Bool := m != 0 && decide (m < 64)

/-- Whether a stepper mask holds a stepper. -/
def maskHas (m : BitVec 8) (n : Stepper) : Bool := bitOf m.toNat n.pos

/-- A stepper mask with one stepper added. -/
def maskAdd (m : BitVec 8) (n : Stepper) : BitVec 8 := m ||| BitVec.ofNat 8 (2 ^ n.pos)

end Sys2Proof.Machine
end

