-- ==== Sys2Proof/Machine/Ops.lean ====
section
/-! DEFINITION. The named operations over the state: one write per block and per record, the time base, and the raising
of notices (R176). -/

namespace Sys2Proof.Machine

namespace State

def setPending (s : State) (x : List Instr) : State := { s with pending := x }
def setTime (s : State) (x : Nat) : State := { s with time := x }
def setZrg (s : State) (x : Zrg) : State := { s with zrg := x }
def setSha (s : State) (x : Sha) : State := { s with sha := x }
def setAqu (s : State) (x : Aqu) : State := { s with aqu := x }
def setPsq (s : State) (x : Psq) : State := { s with psq := x }
def setDln (s : State) (x : Dln) : State := { s with dln := x }
def setAct (s : State) (x : Act) : State := { s with act := x }
def setSsc (s : State) (x : Channels ChannelRec) : State := { s with ssc := x }
def setWch (s : State) (x : Eight WatchRec) : State := { s with wch := x }
def setStr (s : State) (x : Str) : State := { s with str := x }
def setTrq (s : State) (x : Trq) : State := { s with trq := x }
def setBlp (s : State) (x : Blp) : State := { s with blp := x }
def setOps (s : State) (x : Ops) : State := { s with ops := x }
def setMail (s : State) (x : Mail) : State := { s with mail := x }
def setBodyOut (s : State) (x : List Byte) : State := { s with bodyOut := x }
def setDriveOut (s : State) (x : List Byte) : State := { s with driveOut := x }

/-- A zone's record. -/
def zone (s : State) (z : Zone) : ZoneRec := s.zrg.zones.get z
def setZones (s : State) (t : Zones ZoneRec) : State := s.setZrg { s.zrg with zones := t }
def setZone (s : State) (z : Zone) (r : ZoneRec) : State := s.setZones (s.zrg.zones.set z r)

def door (s : State) (d : Door) : DoorRec := s.zrg.doors.get d
def setDoor (s : State) (d : Door) (r : DoorRec) : State := s.setZrg { s.zrg with doors := s.zrg.doors.set d r }

/-- A stepper's record. -/
def stepper (s : State) (n : Stepper) : StepperRec := s.act.steppers.get n
def setStepper (s : State) (n : Stepper) (r : StepperRec) : State :=
  s.setAct { s.act with steppers := s.act.steppers.set n r }

/-- A deck's record in the Actuator Driver. -/
def deck (s : State) (d : Deck) : DeckRec := s.act.decks.get d
def setDeck (s : State) (d : Deck) (r : DeckRec) : State := s.setAct { s.act with decks := s.act.decks.set d r }

def channel (s : State) (c : Channel) : ChannelRec := s.ssc.get c
def setChannel (s : State) (c : Channel) (r : ChannelRec) : State := s.setSsc (s.ssc.set c r)

def watch (s : State) (w : Idx8) : WatchRec := s.wch.get w
def setWatch (s : State) (w : Idx8) (r : WatchRec) : State := s.setWch (s.wch.set w r)

def runner (s : State) : Runner := s.str.runner
def setRunner (s : State) (r : Runner) : State := s.setStr { s.str with runner := r }

def notices (s : State) : NoticeSet := s.blp.notices
def setNotices (s : State) (n : NoticeSet) : State := s.setBlp { s.blp with notices := n }

end State

/-! ## Time base -/

/-- The time base is a 32-bit count (00, Section 2.2). -/
def timeModulus : Nat := 2 ^ 32

/-- Age of a stamp, modulo the 32-bit wrap (R82). -/
def ageOf (now stamp : Nat) : Nat := (now + (timeModulus - stamp % timeModulus)) % timeModulus

/-- Whole seconds since a stamp, truncated (R53: the time base counts units of 100 ms). -/
def secondsSince (now stamp : Nat) : Nat := ageOf now stamp / 10

/-! ## Notices (R176) -/

/-- A notice of one kind is raised: it joins with merge count 0, or replaces the pending content and increments the merge
count, saturating at 255 (R176). -/
def raised {α : Type} (o : Option (PendingNotice α)) (c : α) : Option (PendingNotice α) :=
  match o with
  | none => some ⟨c, 0⟩
  | some p => some ⟨c, satInc 255 p.merged⟩

def raiseStarted (c : ResetCause) (s : State) : State :=
  s.setNotices { s.notices with started := raised s.notices.started c }
def raiseOperationEnd (c : OperationEndNotice) (s : State) : State :=
  s.setNotices { s.notices with operationEnd := raised s.notices.operationEnd c }
def raiseRunnerEnd (c : RunnerEndNotice) (s : State) : State :=
  s.setNotices { s.notices with runnerEnd := raised s.notices.runnerEnd c }
def raiseStageNotice (c : StageNotice) (s : State) : State :=
  s.setNotices { s.notices with stageNotice := raised s.notices.stageNotice c }
def raiseWatchTrip (c : WatchTripNotice) (s : State) : State :=
  s.setNotices { s.notices with watchTrip := raised s.notices.watchTrip c }
def raisePlantTrip (c : FaultRecord) (s : State) : State :=
  s.setNotices { s.notices with plantTrip := raised s.notices.plantTrip c }
def raiseLockout (s : State) : State :=
  s.setNotices { s.notices with lockout := raised s.notices.lockout () }
def raiseAllowanceExpired (inUse : Nat) (s : State) : State :=
  s.setNotices { s.notices with allowanceExpired := raised s.notices.allowanceExpired inUse }
def raiseSensorState (c : SensorStateNotice) (s : State) : State :=
  s.setNotices { s.notices with sensorState := raised s.notices.sensorState c }
def raiseActuatorFault (c : ActuatorFaultNotice) (s : State) : State :=
  s.setNotices { s.notices with actuatorFault := raised s.notices.actuatorFault c }
def raiseTraceState (c : TraceStateNotice) (s : State) : State :=
  s.setNotices { s.notices with traceState := raised s.notices.traceState c }
def raiseRecircHoldEnd (c : HoldEndNotice) (s : State) : State :=
  s.setNotices { s.notices with recircHoldEnd := raised s.notices.recircHoldEnd c }

/-! ## Decks and zones (Table 1-1) -/

/-- The zones of a deck, in table order. -/
def deckZones : Deck → List Zone
  | .upper => [.u1, .u2, .u3]
  | .lower => [.l1, .l2, .e]

/-- A zone's deck. -/
def zoneDeck : Zone → Deck
  | .u1 | .u2 | .u3 => .upper
  | .l1 | .l2 | .e => .lower

/-- A sum over the six zones. -/
def zoneSum {α : Type} [Add α] (f : Zone → α) : α := f .u1 + f .u2 + f .u3 + f .l1 + f .l2 + f .e

end Sys2Proof.Machine
end

