-- ==== Sys2Proof/Machine/Slot.lean ====
section
/-! DEFINITION. The Operation Slot's end of an operation (R174) and its report to the Stage Runner. -/

namespace Sys2Proof.Machine

def OpWork.kind : OpWork → OpKind
  | .home _ => .home
  | .verify _ => .verify
  | .defrost => .defrost
  | .purge _ => .purge

/-- The steppers an operation works through. -/
def OpWork.mask : OpWork → BitVec 8
  | .home m | .verify m => m
  | .defrost | .purge _ => 0

/-- Whether the Stage Runner takes the report of the end of the operation it placed (R150, R152); any other report it
ignores (R174). -/
def Runner.awaitsEnd (r : Runner) : Bool :=
  match r.state with
  | .waiting | .running => decide (r.waitingOn = .operationEnd)
  | .suspended => decide (r.resume.map (·.placed) = some .placed)
  | .idle | .stopped => false

/-- The end of an operation with source RUNNER is reported (R174, step 4); the report is taken before the command ends
(log 7). -/
def reportOpEnd (e : EndState) (s : State) : State :=
  if s.runner.awaitsEnd then s.setMail { s.mail with opEnd := some e } else s

/-- An operation ends (R174): status record, OPERATION END, the slot EMPTY, the report to the runner. -/
def slotEnd (e : EndState) (d : Detail) (s : State) : State :=
  match s.ops.slot with
  | none => s
  | some op =>
    let s1 := raiseOperationEnd ⟨op.work.kind, op.source, e, d⟩
      (s.setOps ⟨none, ⟨some op.work.kind, some op.source, .ended e, d⟩⟩)
    match op.source with
    | .runner => reportOpEnd e s1
    | .body => s1

/-- The end of a defrost sequence, as the slot takes it (R77). -/
def defrostEndState : DefrostEnd → EndState
  | .cleared | .timeout => .done
  | .aborted => .aborted
  | .tripped => .failed

/-- The Plant Sequencer reports the end of a DEFROST operation (R77). -/
def slotDefrostEnd (c : DefrostEnd) (s : State) : State :=
  match s.ops.slot with
  | some ⟨.defrost, _, _, _⟩ => slotEnd (defrostEndState c) (.cause c) s
  | _ => s

/-- The Air Quality Unit reports the end of a PURGE (R58). -/
def slotPurgeEnd (e : EndState) (periods : Nat) (s : State) : State :=
  match s.ops.slot with
  | some ⟨.purge _, _, _, _⟩ => slotEnd e (.periods periods) s
  | _ => s

/-- Whether an ABORT AT-BOUNDARY is pending on the operation in the slot (R175). -/
def abortPending (s : State) : Bool :=
  match s.ops.slot with
  | some op => op.abortPending
  | none => false

end Sys2Proof.Machine
end

