-- ==== Sys2Proof/Machine/Trace.lean ====
section
/-! DEFINITION. The Trace Queue (09): offering records, SNAPSHOTs, the full queue, triggers, and the byte layout of a
record (R182). -/

namespace Sys2Proof.Machine

/-- The queue holds at most 256 records (R158). -/
def traceCapacity : Nat := 256

/-- Whether a record's kind is kept at a level (Table 9-3). -/
def TraceBody.keptAt (level : Nat) : TraceBody → Bool
  | .period .. => decide (2 ≤ level)
  | .zone .. => decide (3 ≤ level)
  | .stage .. => decide (3 ≤ level)
  | _ => true

def TraceBody.isPeriod : TraceBody → Bool
  | .period .. => true
  | _ => false

/-- What became of an offered record (R165: placed, dropped for want of room, or not kept because capture was not
CAPTURING). A record that finds a full queue under COMPLETE (R162) counts as lost for want of room here (log 12). -/
inductive Kept where
  | placed | dropped | notKept
  deriving DecidableEq, Repr

/-- Table 11-5, TRACE MARK. -/
def Kept.code : Kept → Nat
  | .placed => 0
  | .dropped => 1
  | .notKept => 2

/-- R162, R164: a TRACE STATE notice with the state, records in the queue and drop count as they stand. -/
def raiseTraceChange (cause : TraceStateCause) (watch : Option Idx8) (s : State) : State :=
  raiseTraceState ⟨s.trq.capture, cause, watch, s.trq.queue.length, s.trq.dropCount⟩ s

/-- Entry to FULL_STOPPED (R162). -/
def enterFullStopped (s : State) : State :=
  raiseTraceChange .full none (s.setTrq { s.trq with capture := .fullStopped })

/-- A record is placed at the tail; under COMPLETE the record that fills the queue stops capture (R159, R162). -/
def tracePlace (r : TraceRec) (s : State) : State :=
  let s1 := s.setTrq { s.trq with queue := s.trq.queue ++ [r] }
  if s1.trq.policy = .complete ∧ traceCapacity ≤ s1.trq.queue.length then enterFullStopped s1 else s1

/-- A record is dropped for want of room (R161). -/
def traceDrop (stamp : Nat) (s : State) : State :=
  s.setTrq { s.trq with
    dropCount := satInc 65535 s.trq.dropCount
    firstDrop := if s.trq.dropCount = 0 then some stamp else s.trq.firstDrop }

/-- R159, step 3: a PERIOD offered while capturing counts, whether it is then kept or dropped. -/
def countPeriod (b : TraceBody) (s : State) : State :=
  if b.isPeriod then s.setTrq { s.trq with periodCount := satInc 64 s.trq.periodCount } else s

/-- A record made now is offered (R159): kept, dropped or ignored by capture state, level and room. -/
def offerRecord (b : TraceBody) (s : State) : State × Kept :=
  if s.trq.capture ≠ .capturing ∨ b.keptAt s.trq.level = false then (s, .notKept)
  else
    let s1 := countPeriod b s
    if s1.trq.queue.length < traceCapacity then (tracePlace ⟨s1.time, b⟩ s1, .placed)
    else match s1.trq.policy with
      | .discard => (traceDrop s1.time s1, .dropped)
      | .complete => (enterFullStopped s1, .dropped)

/-- The picture a SNAPSHOT takes of the other blocks (Table 9-3, R160). -/
def snapshotBody (s : State) : TraceBody :=
  .snapshot (.ofFn fun z => let r := s.zone z; ⟨r.mode, r.setpoint, r.measured, r.sensorUse, r.demand⟩)
    s.sha.direction s.psq.state s.psq.mode s.sha.effective s.psq.frost s.dln.lastStatus

/-- A SNAPSHOT is made and offered, the period count becoming 0 (R160). -/
def takeSnapshot (s : State) : State :=
  let s1 := s.setTrq { s.trq with periodCount := 0 }
  (offerRecord (snapshotBody s1) s1).1

/-- A record is offered; a PERIOD that brings the period count to the snapshot period is followed by a SNAPSHOT (R160). -/
def offer (b : TraceBody) (s : State) : State :=
  let s1 := (offerRecord b s).1
  if b.isPeriod ∧ s.trq.capture = .capturing ∧ b.keptAt s.trq.level = true ∧ s1.trq.snapshotPeriod ≤ s1.trq.periodCount
  then takeSnapshot s1 else s1

/-- The capture state becomes CAPTURING. -/
def setCapturing (s : State) : State := s.setTrq { s.trq with capture := .capturing }

/-- Entry to CAPTURING (R160, R163): the period count becomes 0 and a SNAPSHOT is the first record. -/
def startCapture (s : State) : State := takeSnapshot (setCapturing s)

/-- A watch's start trigger (R164). The notice of the change is raised before the SNAPSHOT, whose filling the queue under
COMPLETE raises the notice of FULL_STOPPED after it (log 17). -/
def startTrigger (w : Idx8) (s : State) : State :=
  match s.trq.capture with
  | .off | .armed => takeSnapshot (raiseTraceChange .watchStart (some w) (setCapturing s))
  | .capturing | .fullStopped => s

/-- A watch's stop trigger (R164). -/
def stopTrigger (w : Idx8) (s : State) : State :=
  match s.trq.capture with
  | .armed | .capturing => raiseTraceChange .watchStop (some w) (s.setTrq { s.trq with capture := .off })
  | .off | .fullStopped => s

/-! ## Record layout (R182, Table 11-8) -/

def TraceBody.kind : TraceBody → Nat
  | .snapshot .. => 1
  | .plant .. => 2
  | .actuator .. => 3
  | .watch .. => 4
  | .mark .. => 5
  | .period .. => 6
  | .zone .. => 7
  | .stage .. => 8
  | .gap .. => 9

def SnapZone.bytes (z : SnapZone) : List Byte :=
  u8 z.mode.code ++ i16 z.setpoint ++ i16? z.measured ++ u8 z.sensorUse.code ++ i16 z.demand

/-- The drive status in a SNAPSHOT: present, speed, power, temperature (Table 11-8). -/
def snapDrive : Option DriveStatus → List Byte
  | some d => flag true ++ u16 d.speed ++ u16 d.power ++ [BitVec.ofInt 8 d.temperature]
  | none => flag false ++ u16? none ++ u16? none ++ [Config.absentTemperature]

/-- The body of a record (Table 11-8). -/
def TraceBody.bytes : TraceBody → List Byte
  | .snapshot zs dir st mode a frost drive =>
    (Zone.all.flatMap fun z => (zs.get z).bytes) ++ u8 dir.code ++ u8 st.code ++ u8 (runModeCode mode) ++ u16 a ++ u16 frost
      ++ snapDrive drive
  | .plant st mode valve cause => u8 st.code ++ u8 (runModeCode mode) ++ u8 valve.code ++ u8 cause.code
  | .actuator n ev prior count => u8 n.pos ++ u8 ev.code ++ u16? prior ++ u16 count
  | .watch w ch v n => u8 w.pos ++ u8 ch.pos ++ i16 v ++ u8 n
  | .mark v src => u16 v ++ u8 src.code
  | .period n a b pe qd sh hp => u16 n ++ u16 a ++ u16 b ++ u16 pe ++ u32 qd ++ i16 sh ++ u16 hp
  | .zone z sh sf g t => u8 z.pos ++ u16 sh ++ i16 sf ++ u8 g ++ u8 t
  | .stage i o => u8 i ++ u8 o.code
  | .gap d f => u16 d ++ u32 f

/-- Size of the whole record (Table 11-8). -/
def TraceBody.size : TraceBody → Nat
  | .snapshot .. => 67
  | .plant .. => 10
  | .actuator .. => 12
  | .watch .. => 11
  | .mark .. => 9
  | .period .. => 22
  | .zone .. => 13
  | .stage .. => 8
  | .gap .. => 12

/-- A trace record as it stands in a reply: kind, size, time stamp, body (R182). -/
def TraceRec.bytes (r : TraceRec) : List Byte := u8 r.body.kind ++ u8 r.body.size ++ u32 r.stamp ++ r.body.bytes

/-- Record room of a TRACE READ reply (Table 11-5). -/
def traceRoom : Nat := 193

/-- How many records a read takes from the head: while the next fits whole and fewer than n are taken (R166, step 1). -/
def traceTake : Nat → Nat → List TraceRec → Nat
  | 0, _, _ => 0
  | _, _, [] => 0
  | n + 1, room, r :: t => if r.body.size ≤ room then traceTake n (room - r.body.size) t + 1 else 0

end Sys2Proof.Machine
end

