-- ==== Sys2Proof/Machine/Steppers.lean ====
section
/-! DEFINITION. One stepper (06): targets, seeking, reversal, the beginning and successful end of a verify, the timing of
the first step toward 0. What a stepper's home, verify and FAULT mean to other blocks is in Machine/Actuators.lean. -/

namespace Sys2Proof.Machine

/-- Travel in steps (Table 6-2). -/
def travel : Stepper → Nat
  | .fad => 400
  | .eev => 480
  | _ => 200

/-- Steps beyond the expected ones that a home or verify may take (R105, R107). -/
def referenceMargin : Nat := 40
/-- Seek steps after which an automatic verify is due (R103). -/
def verifyInterval : Nat := 2000
/-- Tolerance of a verify (R108). -/
def slipTolerance : Nat := 4

/-- The direction from a position toward a target. -/
def toward (p t : Nat) : Motion := if p < t then .up else .down

/-- One step from a position toward a target. -/
def oneStep (p t : Nat) : Nat := if p < t then p + 1 else p - 1

/-- The stepper stands IDLE. -/
def StepperRec.stand (r : StepperRec) : StepperRec := { r with state := .idle, motion := .none, timer := .stopped }

/-- From a known position the stepper seeks its stored target (R106, R108): IDLE there, or SEEKING with its first step
one step time later. -/
def StepperRec.seekStored (r : StepperRec) : StepperRec :=
  match r.position with
  | none => r
  | some p =>
    if r.target = p then r.stand
    else { r with state := .seeking, motion := toward p r.target, timer := .step r.stepTime }

/-- The first step toward 0 of a home or verify, timed by the stepper's motion at the request (R105). A stepper that was
not moving keeps motion NONE until that step (DEDUCED, log 31). -/
def StepperRec.timeFirstStep (r : StepperRec) : StepperRec :=
  match r.timer with
  | .pause _ => r
  | _ =>
    match r.motion with
    | .down => r
    | .up => { r with motion := .none, timer := .pause (2 * r.stepTime) }
    | .none => { r with timer := .step r.stepTime }

/-- A verify ends at the switch (R108): slip judged, position 0, the counts cleared, the stored target sought. -/
def StepperRec.verifyEnd (r : StepperRec) (slipped : Bool) : StepperRec :=
  { r with
    slipCount := if slipped then satInc 255 r.slipCount else r.slipCount
    position := some 0, stepsMoved := 0, verifyDue := false, refKind := .none, takenOver := false }.seekStored

/-- Whether a verify's count differs from its prior position by more than the tolerance (R108). -/
def StepperRec.slipped (r : StepperRec) : Bool :=
  decide (slipTolerance < r.count - r.prior) || decide (slipTolerance < r.prior - r.count)

/-- The end of a verify, with its ACTUATOR record (R108). The answer tells whether it slipped. -/
def stepperVerifyEnd (n : Stepper) (s : State) : State × Bool :=
  let r := s.stepper n
  (offer (.actuator n (if r.slipped then .slip else .verified) (some r.prior) r.count)
    (s.setStepper n (r.verifyEnd r.slipped)), r.slipped)

/-- The record of a stepper whose verify begins at a known position (R107). -/
def StepperRec.beginVerify (r : StepperRec) (kind : RefKind) (p : Nat) : StepperRec :=
  { r with
    state := .verifying, refKind := kind, prior := p, count := 0, limit := p + referenceMargin, takenOver := false }

/-- A verify begins (R107); with the switch CLOSED it ends at once. The answer tells, where it ended, whether it slipped. -/
def stepperBeginVerify (kind : RefKind) (n : Stepper) (s : State) : State × Option Bool :=
  let r := s.stepper n
  match r.position with
  | none => (s, none)
  | some p =>
    match r.switch with
    | .closed =>
      let e := stepperVerifyEnd n (s.setStepper n (r.beginVerify kind p))
      (e.1, some e.2)
    | .opened => (s.setStepper n (r.beginVerify kind p).timeFirstStep, none)

/-- The stepper becomes IDLE; with a verify due and its position known, an automatic verify begins at once (R103, R107). -/
def stepperBecomeIdle (n : Stepper) (s : State) : State :=
  let r := (s.stepper n).stand
  let s1 := s.setStepper n r
  if r.verifyDue ∧ r.position.isSome then (stepperBeginVerify .automaticVerify n s1).1 else s1

/-- A target arrives for a stepper (R102): clamped and stored in every state, acted on in IDLE and SEEKING. -/
def stepperTarget (n : Stepper) (target : Nat) (s : State) : State :=
  let t := min target (travel n)
  let r := { s.stepper n with target := t }
  let s1 := s.setStepper n r
  match r.state, r.position with
  | .idle, some p => if t = p then s1 else s.setStepper n r.seekStored
  | .seeking, some p =>
    match r.timer with
    | .pause _ => s1
    | _ =>
      if t = p then stepperBecomeIdle n s1
      else if r.motion = toward p t then s1
      else s.setStepper n { r with motion := .none, timer := .pause (2 * r.stepTime) }
  | _, _ => s1

/-- One seek step from a known position (R103, R104): the position moves by one, steps moved counts, and the stepper
becomes IDLE at its target or times its next step. -/
def stepperSeekFrom (n : Stepper) (p : Nat) (s : State) : State :=
  let r := s.stepper n
  let p1 := oneStep p r.target
  let moved := satInc 65535 r.stepsMoved
  let r1 := { r with
    position := some p1, motion := toward p r.target, stepsMoved := moved
    verifyDue := r.verifyDue || decide (moved = verifyInterval), timer := .step r.stepTime }
  let s1 := s.setStepper n r1
  if p1 = r.target then stepperBecomeIdle n s1 else s1

end Sys2Proof.Machine
end

