-- ==== Sys2Proof/Machine/Air.lean ====
section
/-! DEFINITION. The Air Quality Unit (03): fresh fraction and damper target, CO2 boost, recirculation hold, humidity state,
PURGE, ventilation state, and its period. -/

namespace Sys2Proof.Machine

/-- Longest continuous recirculation hold, s (R52, R53). -/
def holdMax : Nat := 600
/-- Periods of damp, and of dry, air that change the humidity state (R55). -/
def humidityPeriods : Nat := 15
/-- Largest number of periods of a PURGE (R57). -/
def purgeMax : Nat := 150

/-- Seated passengers in all six zones. -/
def occupants (s : State) : Nat := zoneSum fun z => (s.zone z).occupancy

/-- Fresh air the passengers require, L/s (R48). -/
def requiredFlow (s : State) : Nat := occupants s * s.aqu.rate

/-- The base fraction, per-mille (R48). -/
def freshBase (s : State) : Nat :=
  if occupants s = 0 then s.aqu.policyMin
  else if s.aqu.supply = 0 then 1000
  else clampNat s.aqu.policyMin 1000 (requiredFlow s * 1000 / s.aqu.supply)

/-- The fresh fraction with the boost as it stands (R48). -/
def freshFraction (s : State) : Nat := min 1000 (freshBase s + s.aqu.boost)

/-- The damper target of a fresh fraction in the states of the unit (R50). -/
def Aqu.damperGoal (a : Aqu) (phi : Nat) : Nat :=
  if a.purgeActive then 400 else if a.holdActive then 0 else phi * 400 / 1000

/-- Fresh fraction and damper target are computed and held (R48, R50). -/
def airCompute (s : State) : State :=
  s.setAqu { s.aqu with phi := freshFraction s, damper := s.aqu.damperGoal (freshFraction s) }

/-- The damper decision between periods (R50): a target that differs goes to the Actuator Driver at once. -/
def airDecide (s : State) : State :=
  let s1 := airCompute s
  if s1.aqu.damper = s.aqu.damper then s1 else stepperTarget .fad s1.aqu.damper s1

/-! ## Boost and humidity -/

/-- A CO2 channel that is not LOST and whose value exceeds 1200 ppm (R49). -/
def Reading.co2High (r : Reading) : Bool :=
  match r.value with
  | some v => decide (r.quality ≠ .lost) && decide (1200 < v)
  | none => false

/-- A CO2 channel that is LOST, or whose value is below 1000 ppm (R49). -/
def Reading.co2Clear (r : Reading) : Bool :=
  decide (r.quality = .lost) ||
    match r.value with
    | some v => decide (v < 1000)
    | none => true

/-- The boost after a period (R49). -/
def boostAfter (s : State) : Nat :=
  if s.aqu.co2.upper.co2High || s.aqu.co2.lower.co2High then
    (if freshBase s + s.aqu.boost < 1000 then min 1000 (s.aqu.boost + 100) else s.aqu.boost)
  else if s.aqu.co2.upper.co2Clear && s.aqu.co2.lower.co2Clear then s.aqu.boost - 100
  else s.aqu.boost

/-- RH stands at 650 or above and is not LOST (R55). -/
def Reading.damp (r : Reading) : Bool :=
  match r.value with
  | some v => decide (r.quality ≠ .lost) && decide (650 ≤ v)
  | none => false

/-- RH stands at 550 or below and is not LOST (R55). -/
def Reading.dry (r : Reading) : Bool :=
  match r.value with
  | some v => decide (r.quality ≠ .lost) && decide (v ≤ 550)
  | none => false

/-- The humidity state at a period, by the direction at the arrival (R55). -/
def Aqu.humidityPeriod (a : Aqu) (d : Direction) : Aqu :=
  match a.humidity with
  | .normal =>
    let n := if a.rh.damp && decide (d = .cool) then a.dryCount + 1 else 0
    if humidityPeriods ≤ n then { a with humidity := .dryNeeded, dryCount := 0, normalCount := 0 }
    else { a with dryCount := n }
  | .dryNeeded =>
    let n := if a.rh.dry then a.normalCount + 1 else 0
    if humidityPeriods ≤ n then { a with humidity := .normal, dryCount := 0, normalCount := 0 }
    else { a with normalCount := n }

/-- The humidity state becomes NORMAL and both counts 0 (R56, R60). -/
def Aqu.humidityNormal (a : Aqu) : Aqu := { a with humidity := .normal, dryCount := 0, normalCount := 0 }

/-- The Share Allocator reports a change of its direction (R56). -/
def airDirection (before after : Direction) (s : State) : State :=
  if before = .cool ∧ after ≠ .cool then s.setAqu s.aqu.humidityNormal else s

/-! ## PURGE (R57, R58) -/

/-- The PURGE counts a period and ends on its count or a pending ABORT AT-BOUNDARY (R47 step 4, R58). -/
def purgePeriod (s : State) : State :=
  if s.aqu.purgeActive then
    let n := s.aqu.periodsRun + 1
    let s1 := s.setAqu { s.aqu with periodsRun := n }
    if s.aqu.purgeCount ≤ n then slotPurgeEnd .done n (s1.setAqu { s1.aqu with purgeActive := false })
    else if abortPending s then slotPurgeEnd .aborted n (s1.setAqu { s1.aqu with purgeActive := false })
    else s1
  else s

/-- The period of the unit: the supply airflow of a share pass arrives (R47). -/
def airPeriod (supply : Nat) (s0 : State) : State :=
  let s := s0.setAqu { s0.aqu.humidityPeriod s0.sha.direction with supply := supply }
  purgePeriod (airCompute (s.setAqu { s.aqu with boost := boostAfter s }))

/-! ## Recirculation hold (R52 to R54) -/

/-- The hold ends with a cause and its notice (R54), the length truncated to whole seconds (DESIGN CHOICE, log 38); what
becomes of the damper target follows. -/
def holdEnds (c : HoldEnd) (s : State) : State :=
  raiseRecircHoldEnd ⟨c, secondsSince s.time s.aqu.holdFirstStart⟩
    (s.setAqu { s.aqu with holdActive := false, holdTimer := none, holdEnd := some c })

/-- START HOLD (R52), a renewal while a hold is ACTIVE (R53), nothing during a PURGE (R52). -/
def startHold (limit : Nat) (s : State) : State :=
  let l := clampNat 1 holdMax limit
  if s.aqu.purgeActive then s
  else if s.aqu.holdActive then
    let elapsed := secondsSince s.time s.aqu.holdFirstStart
    s.setAqu { s.aqu with holdTimer := Timer.seconds (max 1 (min l (holdMax - elapsed))) }
  else
    airDecide (s.setAqu { s.aqu with holdActive := true, holdFirstStart := s.time, holdTimer := Timer.seconds l })

/-- END HOLD (R54). -/
def endHold (s : State) : State := if s.aqu.holdActive then airDecide (holdEnds .released s) else s

/-- Expiry of the hold timer (R54). -/
def holdExpiry (s : State) : State :=
  if s.aqu.holdActive ∧ s.aqu.holdTimer.isSome then airDecide (holdEnds .limit s) else s

/-- SET MINIMUM (R51). -/
def setMinimum (v : Nat) (s : State) : State := airDecide (s.setAqu { s.aqu with policyMin := clampNat 0 1000 v })

/-- SET RATE (R51). -/
def setRate (v : Nat) (s : State) : State := airDecide (s.setAqu { s.aqu with rate := clampNat 4 15 v })

/-- The Operation Slot starts a PURGE (R57). -/
def purgeStart (periods : Nat) (s : State) : State :=
  let s1 := s.setAqu { s.aqu with purgeActive := true, purgeCount := periods, periodsRun := 0 }
  airDecide (if s1.aqu.holdActive then holdEnds .purge s1 else s1)

/-- ABORT NOW of a PURGE (R58). -/
def purgeAbort (s : State) : State :=
  if s.aqu.purgeActive then
    slotPurgeEnd .aborted s.aqu.periodsRun (airDecide (s.setAqu { s.aqu with purgeActive := false }))
  else s

/-! ## Samples, reports, restart -/

/-- A good sample of CO2-U, CO2-L or RH (R46). -/
def airSample (c : Channel) (v : Int) (s : State) : State :=
  match c with
  | .co2U => s.setAqu { s.aqu with co2 := s.aqu.co2.set .upper ⟨some v, .good⟩ }
  | .co2L => s.setAqu { s.aqu with co2 := s.aqu.co2.set .lower ⟨some v, .good⟩ }
  | .rh => s.setAqu { s.aqu with rh := ⟨some v, .good⟩ }
  | _ => s

/-- A HELD or LOST report on CO2-U, CO2-L or RH (R46, R56). -/
def airQuality (c : Channel) (q : Quality) (s : State) : State :=
  match c with
  | .co2U => s.setAqu { s.aqu with co2 := s.aqu.co2.set .upper { s.aqu.co2.upper with quality := q } }
  | .co2L => s.setAqu { s.aqu with co2 := s.aqu.co2.set .lower { s.aqu.co2.lower with quality := q } }
  | .rh =>
    let a := { s.aqu with rh := { s.aqu.rh with quality := q } }
    s.setAqu (if q = .lost then a.humidityNormal else a)
  | _ => s

/-- FAD enters FAULT (R59). -/
def airFadFault (s : State) : State := s.setAqu { s.aqu with vent := .degraded }

/-- FAD leaves FAULT (R59). -/
def airFadBack (s : State) : State := s.setAqu { s.aqu with vent := .normal }

/-- The unit's part of a warm restart (R60). The slot records the PURGE's end itself (R174). -/
def airRestart (s : State) : State :=
  airDecide (s.setAqu { s.aqu.humidityNormal with
    holdActive := false, holdTimer := none, boost := 0, purgeActive := false })

end Sys2Proof.Machine
end

