-- ==== Sys2Proof/Machine/Wire.lean ====
section
/-! DEFINITION. How a frame goes onto either serial line (11): the check, escaping, and the records of the part on the
Drive Line. -/

namespace Sys2Proof.Machine

/-! ## The check (R178) -/

/-- One bit of the CRC-16 with polynomial x^16 + x^12 + x^5 + 1, most significant bit first. -/
def crcBit (c : BitVec 16) : BitVec 16 := if c.msb then (c <<< 1) ^^^ 0x1021 else c <<< 1

/-- One byte of the CRC-16. -/
def crcByte (c : BitVec 16) (b : Byte) : BitVec 16 :=
  let x := c ^^^ (b.setWidth 16 <<< 8)
  crcBit (crcBit (crcBit (crcBit (crcBit (crcBit (crcBit (crcBit x)))))))

/-- The check over some bytes: initial value 0xFFFF, no final inversion (R178). -/
def crc16 (l : List Byte) : BitVec 16 := l.foldl crcByte 0xFFFF

/-- The two check bytes, high byte first (Table 11-1). -/
def checkBytes (l : List Byte) : List Byte := [((crc16 l) >>> 8).setWidth 8, (crc16 l).setWidth 8]

/-! ## Escaping (R178) -/

/-- The start byte. -/
def startByte : Byte := 0xA5
/-- The escape byte. -/
def escapeByte : Byte := 0xA6

/-- A byte as sent after the start byte (R178). -/
def escaped (b : Byte) : List Byte := if b = startByte ∨ b = escapeByte then [escapeByte, b ^^^ 0x20] else [b]

/-- A checked frame as it goes onto a line: start byte, then header, payload and check, escaped (R178). -/
def wireOf (body : List Byte) : List Byte := startByte :: (body ++ checkBytes body).flatMap escaped

/-! ## The Drive Line -/

/-- A record of the part on the Drive Line: kind, length, payload (Table 11-9). -/
def DriveTx.body : DriveTx → List Byte
  | .start p => [0x01, 0x02] ++ u16 p
  | .power p => [0x02, 0x02] ++ u16 p
  | .stop => [0x03, 0x00]

/-- A record of the part as sent on the Drive Line (11). -/
def DriveTx.wire (r : DriveTx) : List Byte := wireOf r.body

end Sys2Proof.Machine
end

