-- ==== Sys2Proof/Machine/Drive.lean ====
section
/-! DEFINITION. The Drive Line (05): start handshake, running supervision, stopping. Each operation answers the state and
what it reports to the Plant Sequencer; Machine/Plant.lean delivers the reports. -/

namespace Sys2Proof.Machine

/-- A record goes out on the Drive Line (R88: in the order issued): start byte, then kind, length, payload and check,
escaped (R178). -/
def State.driveSend (s : State) (r : DriveTx) : State := s.setDriveOut (s.driveOut ++ r.wire)

/-- What the Drive Line reports to the Plant Sequencer (05). -/
inductive DriveReport where
  | started | startFailed | stopped | fault (code : Nat) | silent
  deriving DecidableEq, Repr

/-- Time allowed for START-ACK, ms (R89). -/
def ackTime : Nat := 200
/-- Time allowed for RUNNING, s (R90). -/
def runningTime : Nat := 5
/-- Wait before the next attempt, s (R92). -/
def retryTime : Nat := 30
/-- Time before a POWER is repeated, ms (R94). -/
def refreshTime : Nat := 500
/-- Time before the drive counts as silent, s (R95). -/
def silenceTime : Nat := 2
/-- Time allowed for STOPPED, s (R97). -/
def stopTime : Nat := 5
/-- Attempts of one start request (05, Section 5.2). -/
def maxAttempts : Nat := 3

/-- A STOP goes out, every other timer stops, the stop timer starts and the link is STOPPING (R91, R95 to R97). -/
def dlnSendStop (s : State) : State :=
  (s.driveSend .stop).setDln { s.dln with
    link := .stopping, ackTimer := none, runningTimer := none, retryTimer := none, refreshTimer := none,
    silenceTimer := none, stopTimer := Timer.seconds stopTime }

/-- A start request (R89). The answer is false when it is answered with start failed. -/
def dlnStart (power : Nat) (s : State) : State × Bool :=
  if s.dln.link = .off then
    ((s.driveSend (.start power)).setDln { s.dln with
      initialPower := power, powerSent := power, attempts := 1, failure := .none,
      ackTimer := Timer.start ackTime, link := .startingAck }, true)
  else (s.setDln { s.dln with failure := .stoppedByPlant }, false)

/-- A power command (R94): taken in RUNNING only, sent when it differs from the power sent. -/
def dlnPower (power : Nat) (s : State) : State :=
  if s.dln.link = .running ∧ power ≠ s.dln.powerSent then
    (s.driveSend (.power power)).setDln { s.dln with powerSent := power, refreshTimer := Timer.start refreshTime }
  else s

/-- A stop request or an immediate stop (R97). -/
def dlnStop (s : State) : State :=
  if s.dln.link = .stopping then s else dlnSendStop s

/-- An attempt fails (R92): STOP is sent; below three attempts the link waits to retry, at three the request ends. -/
def dlnAttemptFails (reason : FailureReason) (s : State) : State × Option DriveReport :=
  if s.dln.attempts < maxAttempts then
    ((s.driveSend .stop).setDln { s.dln with
      failure := reason, ackTimer := none, runningTimer := none, retryTimer := Timer.seconds retryTime,
      link := .retryWait }, none)
  else (dlnSendStop (s.setDln { s.dln with failure := reason }), some .startFailed)

/-- A START-ACK record (R90). -/
def dlnStartAck (s : State) : State :=
  if s.dln.link = .startingAck then
    s.setDln { s.dln with ackTimer := none, runningTimer := Timer.seconds runningTime, link := .startingRun }
  else s

/-- A RUNNING record (R91, Table 5-6). -/
def dlnRunning (s : State) : State × Option DriveReport :=
  match s.dln.link with
  | .startingRun =>
    (s.setDln { s.dln with
      runningTimer := none, compressorRunning := true, refreshTimer := Timer.start refreshTime,
      silenceTimer := Timer.seconds silenceTime, link := .running }, some .started)
  | .retryWait | .startingAck =>
    (dlnSendStop (s.setDln { s.dln with compressorRunning := true, failure := .lateRunning }), some .startFailed)
  | .off => (dlnSendStop (s.setDln { s.dln with compressorRunning := true }), none)
  | .stopping => ((s.driveSend .stop).setDln { s.dln with compressorRunning := true }, none)
  | .running => (s, none)

/-- A STATUS record (R95). -/
def dlnStatus (speed power : Nat) (temperature : Int) (s : State) : State :=
  s.setDln { s.dln with
    lastStatus := some ⟨speed, power, temperature, s.time⟩
    silenceTimer := if s.dln.link = .running then Timer.seconds silenceTime else s.dln.silenceTimer }

/-- A FAULT record with a code of 1..255 (R92, R93, R96). -/
def dlnFault (code : Nat) (s : State) : State × Option DriveReport :=
  let s1 := s.setDln { s.dln with lastFault := some ⟨code, s.time⟩ }
  match s.dln.link with
  | .startingAck | .startingRun => dlnAttemptFails .fault s1
  | .running => (dlnSendStop s1, some (.fault code))
  | .stopping => (s1, some (.fault code))
  | .off | .retryWait => (s1, none)

/-- The compressor is at rest, confirmed or presumed; the link is OFF (R98). -/
def dlnAtRest (how : LastStop) (s : State) : State :=
  s.setDln { s.dln with
    stopTimer := none, refreshTimer := none, silenceTimer := none, lastStop := how, compressorRunning := false,
    link := .off }

/-- A STOPPED record (R92, R93, R98). -/
def dlnStopped (s : State) : State × Option DriveReport :=
  match s.dln.link with
  | .startingAck | .startingRun => dlnAttemptFails .stopped s
  | .running | .stopping => (dlnAtRest .confirmed s, some .stopped)
  | .off | .retryWait => (s, none)

/-- Expiry of the ack timer, taken in STARTING-ACK (R92). -/
def dlnAckExpiry (s : State) : State × Option DriveReport :=
  if s.dln.link = .startingAck then dlnAttemptFails .noAck s else (s, none)

/-- Expiry of the running timer, taken in STARTING-RUN (R92). -/
def dlnRunningExpiry (s : State) : State × Option DriveReport :=
  if s.dln.link = .startingRun then dlnAttemptFails .noRunning s else (s, none)

/-- Expiry of the retry timer (R93): the next attempt's START. -/
def dlnRetryExpiry (s : State) : State :=
  if s.dln.link = .retryWait then
    (s.driveSend (.start s.dln.initialPower)).setDln { s.dln with
      retryTimer := none, attempts := s.dln.attempts + 1, powerSent := s.dln.initialPower,
      ackTimer := Timer.start ackTime, link := .startingAck }
  else s

/-- Expiry of the refresh timer (R94): the power sent is repeated. -/
def dlnRefreshExpiry (s : State) : State :=
  if s.dln.link = .running then
    (s.driveSend (.power s.dln.powerSent)).setDln { s.dln with refreshTimer := Timer.start refreshTime }
  else s

/-- Expiry of the silence timer (R95). -/
def dlnSilenceExpiry (s : State) : State × Option DriveReport :=
  if s.dln.link = .running then (dlnSendStop s, some .silent) else (s, none)

/-- Expiry of the stop timer (R98): the compressor is presumed stopped. -/
def dlnStopExpiry (s : State) : State × Option DriveReport :=
  if s.dln.link = .stopping then (dlnAtRest .presumed s, some .stopped) else (s, none)

/-- A record is dropped (R88). -/
def dlnDropRecord (s : State) : State := s.setDln { s.dln with errorCount := satInc 65535 s.dln.errorCount }

end Sys2Proof.Machine
end

