-- ==== Sys2Proof/Machine/Plant.lean ====
section
/-! DEFINITION. The Plant Sequencer (04): the start decision, starting, running and stopping, defrost, trips, the
expansion valve, its period, and what it does on samples, reports and expiries. -/

namespace Sys2Proof.Machine

/-- Anti-short-cycle time, s (R72). -/
def antiShortCycleTime : Nat := 180
/-- Valve settle time, s (R70). -/
def settleTime : Nat := 2
/-- Time in TRIPPED, s (R80). -/
def tripTime : Nat := 300
/-- Longest run of a defrost, s (R75). -/
def defrostTime : Nat := 600
/-- Age at which a trip leaves the history, in time base units (R82). -/
def tripMemory : Nat := 18000
/-- Trips in the history that lock the plant out (R82). -/
def lockoutTrips : Nat := 3
/-- Consecutive low-suction periods that trip (R79). -/
def lowSuctionTrip : Nat := 5
/-- Periods of the verify window (R71). -/
def verifyPeriods : Nat := 5
/-- Frost index at which an automatic defrost may start, and its cap (R73, R74). -/
def frostFull : Nat := 1000
/-- Heat run count from which an automatic defrost may start (R74). -/
def defrostHeatRuns : Nat := 300

/-- START, RUN and RAMPDOWN are the compressor states (04). -/
def PlantState.compressor : PlantState → Bool
  | .start | .run | .rampdown => true
  | _ => false

/-- The valve side a mode runs on (R65, R66). -/
def RunMode.side : RunMode → Valve
  | .heat => .heatSide
  | .cool | .dehum | .defrost => .coolSide

/-- The reversing-valve coil output: energized on the HEAT-SIDE, de-energized on the COOL-SIDE (R66; 00, Table 2). -/
def Psq.coilEnergized (p : Psq) : Bool := decide (p.valve = .heatSide)

/-- The running mode a wanted mode asks for. -/
def WantedMode.mode : WantedMode → Option RunMode
  | .idle => none
  | .heat => some .heat
  | .cool => some .cool
  | .dehum => some .dehum

/-- A PLANT record of the state as it stands (R85). -/
def plantRecord (c : PlantCause) (s : State) : State := offer (.plant s.psq.state s.psq.mode s.psq.valve c) s

/-- Base of the EEV target in RUN (R84). -/
def RunMode.eevBase : RunMode → Nat
  | .heat => 160
  | .cool => 200
  | .dehum => 180
  | .defrost => 300

/-- The EEV target of a sequencer state (R84). -/
def Psq.eevGoal (p : Psq) : Nat :=
  match p.state, p.mode with
  | .run, some m => min (m.eevBase + p.command * 60 / 1000) 480
  | _, _ => 100

/-- The EEV target is worked out again and handed to the Actuator Driver when it changes (R84). -/
def eevUpdate (s : State) : State :=
  if s.psq.eevGoal = s.psq.eevTarget then s
  else stepperTarget .eev s.psq.eevGoal (s.setPsq { s.psq with eevTarget := s.psq.eevGoal })

/-- The fan is ON in RUN with running mode HEAT, COOL or DEHUM (R66). -/
def Psq.fanGoal (p : Psq) : Bool :=
  match p.state, p.mode with
  | .run, some .heat | .run, some .cool | .run, some .dehum => true
  | _, _ => false

def fanUpdate (s : State) : State := s.setPsq { s.psq with fanOn := s.psq.fanGoal }

/-- Fan and EEV target after a change of state or running mode (R66, R84). -/
def plantOutputs (s : State) : State := eevUpdate (fanUpdate s)

/-- Entry to RAMPDOWN (R68), with the cause of its PLANT record. -/
def enterRampdown (c : PlantCause) (s : State) : State :=
  let s1 := s.setPsq { s.psq with
    state := .rampdown, mode := none, command := 0, verifyWindow := .closed, lowSuctionCount := 0 }
  plantRecord c (plantOutputs (dlnStop s1))

/-- What every defrost end does (R75 to R77): the mark, the counts and the frost index, the cause, the timer, and the
report to the slot of a DEFROST operation. -/
def defrostEnds (c : DefrostEnd) (s : State) : State :=
  let s1 := s.setPsq { s.psq with
    defrostMark := .none, heatRunCount := 0, defrostTimer := none, lastDefrostEnd := some c
    frost := match c with
      | .cleared => 0
      | .timeout => 500
      | .aborted | .tripped => s.psq.frost }
  match s.psq.defrostMark with
  | .operation => slotDefrostEnd c s1
  | _ => s1

/-- A defrost end at which RAMPDOWN is entered: one PLANT record for both (R75, R76, R85). -/
def defrostEndsInRampdown (c : DefrostEnd) (s : State) : State := enterRampdown (.defrostEnd c) (defrostEnds c s)

/-- A defrost end with a PLANT record of its own (R85). -/
def defrostEndsInPlace (c : DefrostEnd) (s : State) : State := plantRecord (.defrostEnd c) (defrostEnds c s)

/-- The trip history after a trip now (R82). -/
def tripHistoryAfter (now : Nat) (h : List Nat) : List Nat := h.filter (fun t => ageOf now t < tripMemory) ++ [now]

/-- A protective trip (R80 to R82). The trip event reaches the Stage Runner before the command ends (log 7). -/
def plantTrip (c : TripCause) (code : Nat) (s0 : State) : State :=
  let s := dlnStop s0
  let h := tripHistoryAfter s.time s.psq.tripHistory
  let locked := decide (lockoutTrips ≤ h.length)
  let rec' : FaultRecord := ⟨some c, s.psq.state, s.psq.mode, s.psq.wanted, code, s.time, h.length⟩
  let s1 := s.setPsq { s.psq with
    state := if locked then .lockout else .tripped
    tripTimer := if locked then none else Timer.seconds tripTime
    antiShortCycle := Timer.seconds antiShortCycleTime
    faultRecord := rec', tripHistory := h, command := 0, mode := none, verifyWindow := .closed, lowSuctionCount := 0
    startPending := false, dwell := .stopped, settleTimer := none, restartMark := false }
  let s2 := plantRecord (.trip c) (plantOutputs s1)
  let s3 := if s2.psq.defrostMark = .none then s2 else defrostEndsInPlace .tripped s2
  let s4 := raisePlantTrip rec' s3
  let s5 := if locked then raiseLockout s4 else s4
  s5.setMail { s5.mail with trip := true }

/-- What the start is for (R65): DEFROST during a defrost sequence, the recorded wanted mode otherwise. -/
def Psq.startFor (p : Psq) : Option RunMode :=
  if p.defrostMark = .none then p.wanted.mode else some .defrost

/-- The blocks of a start (R65): the anti-short-cycle timer runs, EEV is in FAULT, or a pressure channel is LOST. -/
def Psq.startBlocked (p : Psq) : Bool :=
  p.antiShortCycle.isSome || p.eevFaulted || decide (p.pSuc.quality = .lost) || decide (p.pDis.quality = .lost)

/-- Entry to START (R67), with the cause of its PLANT record. A start request that the line cannot serve is the trip of
R80 (R89). -/
def enterStart (m : RunMode) (c : PlantCause) (s : State) : State :=
  let s1 := plantRecord c (plantOutputs (s.setPsq { s.psq with state := .start, mode := some m, startPending := false }))
  let d := dlnStart 0 s1
  if d.2 then d.1 else plantTrip .driveStartFailed 0 d.1

/-- Entry to SHIFT (R66, R70): the valve switches and the settle timer starts. -/
def enterShift (side : Valve) (c : PlantCause) (s : State) : State :=
  plantRecord c (plantOutputs (s.setPsq { s.psq with
    state := .shift, valve := side, startPending := false, settleTimer := Timer.seconds settleTime }))

/-- Whether the start decision is taken in a state (R65): STOPPED, or EQUALIZE with its dwell expired. -/
def Psq.decides (p : Psq) : Bool :=
  match p.state with
  | .stopped => true
  | .equalize => decide (p.dwell = .expired)
  | _ => false

/-- The findings of the start decision (R65). -/
def decideStart (s : State) : State :=
  match s.psq.startFor with
  | none =>
    match s.psq.state with
    | .equalize => plantRecord .wanted (s.setPsq { s.psq with state := .stopped, startPending := false })
    | _ => s.setPsq { s.psq with startPending := false }
  | some m =>
    if s.psq.startBlocked then s.setPsq { s.psq with startPending := true }
    else if s.psq.valve = m.side then enterStart m .decision s
    else enterShift m.side .decision s

/-- The start decision (R65), taken where the state takes it. A defrost sequence that finds EEV in FAULT ends ABORTED and
the decision is taken for the wanted mode (R76). -/
def startDecision (s : State) : State :=
  if s.psq.decides then
    if s.psq.defrostMark ≠ .none ∧ s.psq.eevFaulted = true then decideStart (defrostEndsInPlace .aborted s)
    else decideStart s
  else s

/-- Entry to STOPPED, which is a decision event (R65). -/
def enterStopped (c : PlantCause) (s : State) : State :=
  startDecision (plantRecord c (s.setPsq { s.psq with state := .stopped }))

/-- Settle expiry (R70): what the start is for is read again. -/
def plantSettle (s0 : State) : State :=
  let s := s0.setPsq { s0.psq with settleTimer := none }
  match s.psq.startFor with
  | none => enterStopped .settled s
  | some m =>
    if s.psq.valve = m.side then (if s.psq.startBlocked then enterStopped .settled s else enterStart m .settled s)
    else enterShift m.side .settled s

/-- The wanted mode is acted on in RUN with running mode HEAT, COOL or DEHUM (R68). -/
def actOnWanted (s : State) : State :=
  match s.psq.state, s.psq.mode with
  | .run, some m =>
    if m = .defrost ∨ s.psq.wanted.mode = some m then s
    else match m, s.psq.wanted with
      | .cool, .dehum => plantRecord .wanted (plantOutputs (s.setPsq { s.psq with mode := some .dehum }))
      | .dehum, .cool => plantRecord .wanted (plantOutputs (s.setPsq { s.psq with mode := some .cool }))
      | _, _ => enterRampdown .wanted s
  | _, _ => s

/-- The Drive Line reports compressor started (R67); outside START it is not acted on (R97). -/
def plantStarted (s : State) : State :=
  match s.psq.state, s.psq.mode with
  | .start, some .defrost =>
    plantRecord .started (plantOutputs (s.setPsq { s.psq with state := .run, defrostTimer := Timer.seconds defrostTime }))
  | .start, some _ =>
    actOnWanted (plantRecord .started (plantOutputs (s.setPsq { s.psq with
      state := .run, verifyWindow := .opened, verifyCount := verifyPeriods })))
  | _, _ => s

/-- The Drive Line reports compressor stopped (R68, R69, R72, R78, R86). -/
def plantStopped (s0 : State) : State :=
  let s := s0.setPsq { s0.psq with antiShortCycle := Timer.seconds antiShortCycleTime }
  match s.psq.state with
  | .rampdown =>
    if s.psq.restartMark then enterStopped .stoppedReport (s.setPsq { s.psq with restartMark := false })
    else plantRecord .stoppedReport (s.setPsq { s.psq with
      state := .equalize, dwell := .running (1000 * s.psq.settings.dwell), startPending := false })
  | .run => plantTrip .driveFault 0 s
  | _ => s

/-- The Drive Line's reports (R78 for those that trip). -/
def plantReport (r : DriveReport) (s : State) : State :=
  match r with
  | .started => plantStarted s
  | .stopped => plantStopped s
  | .startFailed => if s.psq.state = .start then plantTrip .driveStartFailed 0 s else s
  | .fault code => if s.psq.state = .run ∨ s.psq.state = .rampdown then plantTrip .driveFault code s else s
  | .silent => if s.psq.state = .run then plantTrip .driveSilent 0 s else s

/-- Delivers what a Drive Line operation answered. -/
def deliver (x : State × Option DriveReport) : State :=
  match x.2 with
  | some r => plantReport r x.1
  | none => x.1

/-- A compressor command arrives, from a pass or a shedding (R64, R84). -/
def plantCommand (pe : Nat) (s : State) : State :=
  let s1 := s.setPsq { s.psq with command := pe }
  if s.psq.state = .run then eevUpdate (dlnPower pe s1) else s1

/-- A defrost sequence starts (R74): the mark, then RAMPDOWN. -/
def defrostStart (mark : DefrostMark) (s : State) : State :=
  enterRampdown .defrostStart (s.setPsq { s.psq with defrostMark := mark })

/-- Whether a DEFROST operation applies (R74): RUN with running mode HEAT. -/
def Psq.inRunHeat (p : Psq) : Bool := decide (p.state = .run) && decide (p.mode = some .heat)

/-- Whether P-SUC stands below the suction limit (R79). -/
def Psq.suctionLow (p : Psq) : Bool :=
  match p.pSuc.value with
  | some v => decide (v < p.settings.suctionLimit)
  | none => false

/-- The low suction count at a period in RUN (R79). -/
def suctionPeriod (s : State) : State :=
  if s.psq.state = .run then
    let n := if s.psq.suctionLow then s.psq.lowSuctionCount + 1 else 0
    let s1 := s.setPsq { s.psq with lowSuctionCount := n }
    if lowSuctionTrip ≤ n then plantTrip .lowSuction 0 s1 else s1
  else s

/-- The verify window at a period in RUN (R71). -/
def verifyPeriod (s : State) : State :=
  if s.psq.state = .run then
    let n := s.psq.verifyCount - 1
    match s.psq.verifyWindow with
    | .closed => s
    | .opened =>
      let s1 := s.setPsq { s.psq with verifyCount := n }
      if n = 0 then plantTrip .modeNotConfirmed 0 s1 else s1
    | .satisfied =>
      s.setPsq { s.psq with verifyCount := n, verifyWindow := if n = 0 then .closed else .satisfied }
  else s

/-- Frost index increase per period, by outdoor value (Table 4-6). -/
def frostAdd : Option Int → Nat
  | none => 8
  | some t => if t ≤ -150 then 2 else if t ≤ -51 then 4 else if t ≤ 50 then 8 else 3

/-- Whether a period adds to the frost index (R73). -/
def Psq.coilIcing (p : Psq) : Bool :=
  match p.coil.value with
  | some v => decide (p.coil.quality ≠ .lost) && decide (v < 0)
  | none => false

/-- Frost index and heat run count at a period in RUN HEAT, and an automatic defrost (R73, R74). -/
def frostPeriod (s : State) : State :=
  if s.psq.inRunHeat then
    let f := if s.psq.coilIcing then min frostFull (s.psq.frost + frostAdd s.psq.outdoor) else s.psq.frost
    let n := satInc 65535 s.psq.heatRunCount
    let s1 := s.setPsq { s.psq with frost := f, heatRunCount := n }
    if f = frostFull ∧ defrostHeatRuns ≤ n then defrostStart .auto s1 else s1
  else s

/-- The period of the Plant Sequencer (R63): a pass's wanted mode and compressor command arrive. A trip or a defrost start
leaves a state in which the later parts do nothing. -/
def plantPeriod (wanted : WantedMode) (pe : Nat) (s : State) : State :=
  let s1 := plantCommand pe (s.setPsq { s.psq with wanted := wanted })
  let s2 := frostPeriod (verifyPeriod (suctionPeriod s1))
  startDecision (actOnWanted s2)

/-! ## Samples and quality reports (R61, R71, R75, R78) -/

/-- A pressure sample that shows the verify difference satisfies an OPEN window (R71). -/
def verifySample (s : State) : State :=
  match s.psq.pSuc.value, s.psq.pDis.value with
  | some a, some b =>
    if s.psq.state = .run ∧ s.psq.verifyWindow = .opened ∧ (s.psq.settings.verifyDifference : Int) ≤ b - a
    then s.setPsq { s.psq with verifyWindow := .satisfied } else s
  | _, _ => s

/-- A good sample on a pressure channel that was LOST is a decision event (R65). -/
def pressureBack (before : Quality) (s : State) : State := if before = .lost then startDecision s else s

def plantSuctionSample (v : Int) (s : State) : State :=
  pressureBack s.psq.pSuc.quality (verifySample (s.setPsq { s.psq with pSuc := ⟨some v, .good⟩ }))

def plantDischargeSample (v : Int) (s : State) : State :=
  let s1 := s.setPsq { s.psq with pDis := ⟨some v, .good⟩ }
  let s2 := if s1.psq.state.compressor ∧ (s1.psq.settings.dischargeLimit : Int) < v
    then plantTrip .highDischarge 0 s1 else s1
  pressureBack s.psq.pDis.quality (verifySample s2)

def plantCoilSample (v : Int) (s : State) : State :=
  let s1 := s.setPsq { s.psq with coil := ⟨some v, .good⟩ }
  if s1.psq.state = .run ∧ s1.psq.mode = some .defrost ∧ (s1.psq.settings.defrostClear : Int) ≤ v
  then defrostEndsInRampdown .cleared s1 else s1

def plantOutdoorSample (v : Int) (s : State) : State := s.setPsq { s.psq with outdoor := some v }

/-- A HELD or LOST report on a pressure channel or T-COIL; a LOST pressure trips in the compressor states (R78). -/
def plantQuality (c : Channel) (q : Quality) (s : State) : State :=
  match c with
  | .pSuc => pressureLost q (s.setPsq { s.psq with pSuc := { s.psq.pSuc with quality := q } })
  | .pDis => pressureLost q (s.setPsq { s.psq with pDis := { s.psq.pDis with quality := q } })
  | .tCoil => s.setPsq { s.psq with coil := { s.psq.coil with quality := q } }
  | _ => s
where
  pressureLost (q : Quality) (s : State) : State :=
    if q = .lost ∧ s.psq.state.compressor then plantTrip .pressureLost 0 s else s

/-! ## EEV reports, operations, lockout, expiries -/

/-- EEV enters FAULT (R78, R110). -/
def plantEevFault (s : State) : State :=
  let s1 := s.setPsq { s.psq with eevFaulted := true }
  if s1.psq.state.compressor then plantTrip .eevFault 0 s1 else s1

/-- EEV leaves FAULT, a decision event (R65, R110). -/
def plantEevBack (s : State) : State := startDecision (s.setPsq { s.psq with eevFaulted := false })

/-- ABORT of a DEFROST operation (R75, R76). In STOPPED, for which R76 has no row, the sequence ends in place (DESIGN
CHOICE, log 39). -/
def plantDefrostAbort (s : State) : State :=
  if s.psq.defrostMark = .none then s
  else match s.psq.state with
    | .run | .start => defrostEndsInRampdown .aborted s
    | _ => defrostEndsInPlace .aborted s

/-- CLEAR LOCKOUT (R83). -/
def plantClearLockout (s : State) : State :=
  if s.psq.state = .lockout then enterStopped .lockoutCleared (s.setPsq { s.psq with tripHistory := [] }) else s

def plantAntiShortCycleExpiry (s : State) : State :=
  if s.psq.antiShortCycle.isSome then startDecision (s.setPsq { s.psq with antiShortCycle := none }) else s

def Dwell.isRunning : Dwell → Bool
  | .running _ => true
  | _ => false

def plantDwellExpiry (s : State) : State :=
  if s.psq.dwell.isRunning then startDecision (s.setPsq { s.psq with dwell := .expired }) else s

def plantSettleExpiry (s : State) : State :=
  if s.psq.state = .shift ∧ s.psq.settleTimer.isSome then plantSettle s else s

def plantTripExpiry (s : State) : State :=
  if s.psq.state = .tripped ∧ s.psq.tripTimer.isSome
  then enterStopped .tripExpired (s.setPsq { s.psq with tripTimer := none }) else s

def plantDefrostExpiry (s : State) : State :=
  if s.psq.state = .run ∧ s.psq.mode = some .defrost ∧ s.psq.defrostTimer.isSome
  then defrostEndsInRampdown .timeout s else s

/-! ## Warm restart (R86) -/

/-- The state change of a warm restart (R86). -/
def plantRestartState (s : State) : State :=
  match s.psq.state with
  | .run | .start =>
    let s1 := enterRampdown .restart s
    s1.setPsq { s1.psq with restartMark := true }
  | .rampdown => s.setPsq { s.psq with restartMark := true }
  | .equalize | .shift =>
    plantRecord .restart (s.setPsq { s.psq with state := .stopped, dwell := .stopped, settleTimer := none })
  | .stopped | .tripped | .lockout => s

/-- The Plant Sequencer's part of a warm restart (R86). A DEFROST operation is recorded ABORTED by the slot itself. -/
def plantRestart (s0 : State) : State :=
  let s1 := s0.setPsq { s0.psq with wanted := .idle, startPending := false }
  let s2 := plantRestartState s1
  let s3 := s2.setPsq { s2.psq with verifyWindow := .closed, lowSuctionCount := 0 }
  if s3.psq.defrostMark = .none then s3
  else plantRecord (.defrostEnd .aborted) (s3.setPsq { s3.psq with
    defrostMark := .none, heatRunCount := 0, defrostTimer := none, lastDefrostEnd := some .aborted })

end Sys2Proof.Machine
end

