-- ==== Sys2Proof/Machine/Zones.lean ====
section
/-! DEFINITION. The Zone Regulator (01): mode writes, doors, sensor use and borrowing, the PI computation, in band. The
demand set it hands over (R8) is the zone table as it stands. -/

namespace Sys2Proof.Machine

/-- Control period, s (R7). -/
def controlPeriod : Nat := 2
/-- Open-door timer, s (R18). -/
def openDoorTime : Nat := 120

/-- The zone a door freezes (Table 1-6). -/
def doorZone : Door → Zone
  | .d1 => .e
  | .d2 => .l2

/-- A zone's temperature channel (Table 1-1). -/
def zoneChannel : Zone → Channel
  | .u1 => .tU1
  | .u2 => .tU2
  | .u3 => .tU3
  | .l1 => .tL1
  | .l2 => .tL2
  | .e => .tE

/-- The zone a temperature channel serves (Table 7-1). -/
def channelZone : Channel → Option Zone
  | .tU1 => some .u1
  | .tU2 => some .u2
  | .tU3 => some .u3
  | .tL1 => some .l1
  | .tL2 => some .l2
  | .tE => some .e
  | _ => none

/-! ## Settings (R2, R3) -/

/-- A mode write (R3, Table 1-3). -/
def ZoneRec.setMode (r : ZoneRec) (m : ZoneMode) : ZoneRec :=
  if r.mode = m then r
  else match m with
    | .off => { r with mode := .off, integrator := 0, demand := 0, inBand := false }
    | .vent => { r with mode := .vent, demand := 0, inBand := false }
    | .regulate => { r with mode := .regulate }

/-- A setpoint write (R2): clamped to 160..300. -/
def ZoneRec.setSetpoint (r : ZoneRec) (v : Int) : ZoneRec := { r with setpoint := clampInt 160 300 v }

/-- Setpoint and mode, each when given, are written to one zone (R2). -/
def ZoneRec.write (r : ZoneRec) (mode : Option ZoneMode) (setpoint : Option Int) : ZoneRec :=
  let r1 := match setpoint with
    | some v => r.setSetpoint v
    | none => r
  match mode with
  | some m => r1.setMode m
  | none => r1

/-- A ZONE SET acts on the zones of a mask (R2). -/
def zoneWrite (mask : Nat) (mode : Option ZoneMode) (setpoint : Option Int) (s : State) : State :=
  s.setZones (.ofFn fun z => if bitOf mask z.pos then (s.zone z).write mode setpoint else s.zone z)

/-! ## Doors (R18, R19) -/

/-- A door's zone takes or loses its freeze. -/
def setFreeze (d : Door) (b : Bool) (s : State) : State :=
  s.setZone (doorZone d) { s.zone (doorZone d) with doorFreeze := b }

/-- A VEHICLE STATE reports a door's state (R18, R19). -/
def doorReport (d : Door) (opened : Bool) (s : State) : State :=
  if (s.door d).isOpen = opened then s
  else if opened then setFreeze d true (s.setDoor d ⟨true, Timer.seconds openDoorTime⟩)
  else setFreeze d false (s.setDoor d ⟨false, none⟩)

/-- Expiry of an open-door timer (R19). -/
def doorExpiry (d : Door) (s : State) : State :=
  if (s.door d).timer.isSome then setFreeze d false (s.setDoor d { s.door d with timer := none }) else s

/-! ## Sensor use (R14 to R17) -/

/-- A good sample of the zone's channel (R14). -/
def ZoneRec.sample (r : ZoneRec) (v : Int) : ZoneRec := { r with measured := some v, sensorUse := .good }

/-- A HELD report of the zone's channel (R15). -/
def ZoneRec.heldReport (r : ZoneRec) : ZoneRec := if r.measured.isSome then { r with sensorUse := .held } else r

/-- The measured values of a zone's deck-mates whose sensor use is GOOD (R16). -/
def goodMates (t : Zones ZoneRec) (z : Zone) : List Int :=
  ((deckZones (zoneDeck z)).filter fun m => decide (m ≠ z) && decide ((t.get m).sensorUse = .good)).filterMap
    fun m => (t.get m).measured

/-- A zone whose channel is LOST is BORROWED from its GOOD deck-mates, or BLIND (R16). -/
def borrow (t : Zones ZoneRec) (z : Zone) : ZoneRec :=
  match goodMates t z with
  | [] => { t.get z with sensorUse := .blind }
  | vs => { t.get z with measured := some (vs.sum.tdiv vs.length), sensorUse := .borrowed }

/-- The borrow refresh of a control period (R17). -/
def borrowRefresh (s : State) : State :=
  s.setZones (.ofFn fun z =>
    if (s.channel (zoneChannel z)).quality = .lost then borrow s.zrg.zones z else s.zone z)

/-! ## Demand and in band (R10 to R13) -/

/-- Whether a zone has a temperature to work from (Table 1-5). -/
def SensorUse.computes : SensorUse → Bool
  | .good | .held | .borrowed => true
  | .blind => false

/-- The error, clamped to -200..+200 (R10, step 1). -/
def piError (r : ZoneRec) (m : Int) : Int := clampInt (-200) 200 (r.setpoint - m)

/-- The anti-windup condition (R11). -/
def windup (p i e : Int) : Bool :=
  decide (1000 ≤ (p + i).natAbs) && ((decide (0 < e) && decide (0 < i)) || (decide (e < 0) && decide (i < 0)))

/-- The integrator after a period (R11). -/
def integratorAfter (g : Gains) (r : ZoneRec) (e : Int) : Int :=
  if decide (g.deadband < e.natAbs) && !r.doorFreeze && !windup (g.kp * e) r.integrator e then
    clampInt (-g.imax) g.imax (r.integrator + ((g.ki : Int) * e).tdiv 16)
  else r.integrator

/-- A regulated zone's demand (R10). -/
def ZoneRec.regulated (g : Gains) (r : ZoneRec) (m : Int) : ZoneRec :=
  let e := piError r m
  let i := integratorAfter g r e
  { r with integrator := i, demand := clampInt (-1000) 1000 (g.kp * e + i) }

/-- A zone's demand at a control period expiry (R10, R12). -/
def ZoneRec.period (g : Gains) (r : ZoneRec) : ZoneRec :=
  match r.mode with
  | .off => { r with demand := 0, integrator := 0 }
  | .vent => { r with demand := 0 }
  | .regulate =>
    if r.sensorUse.computes then
      match r.measured with
      | some m => r.regulated g m
      | none => { r with demand := 0 }
    else { r with demand := 0 }

/-- In band at a control period expiry (R13). -/
def ZoneRec.inBandAt (g : Gains) (r : ZoneRec) : Bool :=
  match r.mode, r.measured with
  | .regulate, some m => r.sensorUse.computes && decide ((r.setpoint - m).natAbs ≤ g.band)
  | _, _ => false

/-- The demands of all six zones, then in band (R7, steps 2 and 3). -/
def zonePeriod (s : State) : State :=
  s.setZones (.ofFn fun z =>
    let r := (s.zone z).period s.zrg.gains
    { r with inBand := r.inBandAt s.zrg.gains })

/-- New gains (R9): a new Imax clamps the integrators at once. -/
def setGains (g : Gains) (s : State) : State :=
  s.setZrg { s.zrg with
    gains := g
    zones := .ofFn fun z => { s.zone z with integrator := clampInt (-g.imax) g.imax (s.zone z).integrator } }

/-- A zone's flap stepper enters or leaves FAULT (R110). -/
def setFlapUsable (z : Zone) (b : Bool) (s : State) : State := s.setZone z { s.zone z with flapUsable := b }

/-- The Zone Regulator's part of a warm restart (R21). -/
def zonesRestart (s : State) : State :=
  s.setZones (.ofFn fun z => { s.zone z with
    mode := .off, integrator := 0, demand := 0, share := 0, shortfall := 0, granted := 0, inBand := false })

end Sys2Proof.Machine
end

