-- ==== Sys2Proof/Machine/Actuators.lean ====
section
/-! DEFINITION. Home, verify and FAULT of the steppers with what they mean to other blocks (06), and the Operation Slot
that works through the steppers of a HOME or VERIFY and starts and aborts operations (R173 to R175). -/

namespace Sys2Proof.Machine

/-- A stepper's outcome as it goes to the Operation Slot (R106 to R108). -/
inductive StepperOutcome where
  | homed | verified | slipped | faulted | notReferenced
  deriving DecidableEq, Repr

/-- The zone whose flap a stepper moves (Table 6-2). -/
def flapZone : Stepper → Option Zone
  | .fU1 => some .u1
  | .fU2 => some .u2
  | .fU3 => some .u3
  | .fL1 => some .l1
  | .fL2 => some .l2
  | .fE => some .e
  | .fad | .eev => none

/-- A stepper's entering FAULT is reported to its users (R110). -/
def tellFault (n : Stepper) (s : State) : State :=
  match n, flapZone n with
  | .fad, _ => airFadFault s
  | .eev, _ => plantEevFault s
  | _, some z => setFlapUsable z false s
  | _, none => s

/-- A stepper's leaving FAULT is reported to its users (R110). -/
def tellBack (n : Stepper) (s : State) : State :=
  match n, flapZone n with
  | .fad, _ => airFadBack s
  | .eev, _ => plantEevBack s
  | _, some z => setFlapUsable z true s
  | _, none => s

/-! ## Home (R105, R106) -/

/-- A home ends at the switch (R106). Order of report, seek and record: log 30. -/
def stepperHomeEnd (n : Stepper) (s : State) : State :=
  let r := s.stepper n
  let s1 := s.setStepper n { r with
    position := some 0, stepsMoved := 0, verifyDue := false, refKind := .none, faulted := false }
  let s2 := if r.faulted then tellBack n s1 else s1
  offer (.actuator n .homed none r.count) (s2.setStepper n (s2.stepper n).seekStored)

/-- A home request (R105); with the switch CLOSED it ends at once. -/
def stepperHome (n : Stepper) (s : State) : State × Option StepperOutcome :=
  let r := { s.stepper n with
    state := .homing, refKind := .home, count := 0, limit := travel n + referenceMargin, position := none
    takenOver := false }
  match r.switch with
  | .closed => (stepperHomeEnd n (s.setStepper n r), some .homed)
  | .opened => (s.setStepper n r.timeFirstStep, none)

/-! ## FAULT (R106, R108, R110) -/

/-- A stepper enters FAULT (R110): notice, ACTUATOR record, and its users where it was not faulted before. -/
def stepperFault (n : Stepper) (c : StepperFaultCause) (s : State) : State :=
  let r := s.stepper n
  let s1 := s.setStepper n { r with
    state := .fault, position := none, motion := .none, timer := .stopped, refKind := .none, faulted := true
    takenOver := false }
  let s2 := raiseActuatorFault ⟨n, c, r.count⟩ s1
  let prior := match c with
    | .homeLimit => none
    | .verifyLimit => some r.prior
  let s3 := offer (.actuator n .fault prior r.count) s2
  if r.faulted then s3 else tellFault n s3

/-! ## Verify (R107, R108) -/

/-- The outcome of a verify (R108). -/
def verifyOutcome (slipped : Bool) : StepperOutcome := if slipped then .slipped else .verified

/-- A verify request of the Operation Slot (R107). -/
def stepperVerify (n : Stepper) (s : State) : State × Option StepperOutcome :=
  let r := s.stepper n
  match r.state with
  | .idle | .seeking =>
    let x := stepperBeginVerify .operationVerify n s
    (x.1, x.2.map verifyOutcome)
  | .verifying =>
    if r.refKind = .automaticVerify then (s.setStepper n { r with refKind := .operationVerify, takenOver := true }, none)
    else (s, none)
  | .unhomed | .fault => (s, some .notReferenced)
  | .homing => (s, none)

/-- One step toward 0 of a home or verify (R105, R107): the count, and the position of a verify. -/
def StepperRec.stepDown (r : StepperRec) : StepperRec :=
  { r with
    count := r.count + 1, motion := .down, timer := .step r.stepTime
    position := match r.state with
      | .verifying => if r.count + 1 ≤ r.prior then some (r.prior - (r.count + 1)) else none
      | _ => r.position }

/-- An expiry of the step timer or pause of a HOMING or VERIFYING stepper (R105 to R108). The answer is the outcome that
goes to the slot. -/
def stepperReference (n : Stepper) (s : State) : State × Option StepperOutcome :=
  let r := s.stepper n
  if r.limit ≤ r.count ∧ r.switch = .opened then
    match r.refKind with
    | .home => (stepperFault n .homeLimit s, some .faulted)
    | .operationVerify => (stepperFault n .verifyLimit s, some .faulted)
    | _ => (stepperFault n .verifyLimit s, none)
  else (s.setStepper n r.stepDown, none)

/-- A closing of the home switch (R106, R108). -/
def stepperSwitchClose (n : Stepper) (s0 : State) : State × Option StepperOutcome :=
  let s := s0.setStepper n { s0.stepper n with switch := .closed }
  match (s.stepper n).state with
  | .homing => (stepperHomeEnd n s, some .homed)
  | .verifying =>
    let x := stepperVerifyEnd n s
    (x.1, if (s.stepper n).refKind = .operationVerify then some (verifyOutcome x.2) else none)
  | _ => (s, none)

/-- An opening of the home switch (R106): recorded only. -/
def stepperSwitchOpen (n : Stepper) (s : State) : State := s.setStepper n { s.stepper n with switch := .opened }

/-- ABORT NOW of the stepper in hand (R109). A stepper left IDLE with a verify due verifies at once, before it seeks its
target (DEDUCED, log 32). -/
def stepperAbort (n : Stepper) (s : State) : State :=
  let r := s.stepper n
  let still := { r with refKind := .none, motion := .none, timer := .stopped, takenOver := false }
  match r.state with
  | .homing => s.setStepper n { still with state := if r.faulted then .fault else .unhomed, position := none }
  | .verifying =>
    if r.takenOver then s.setStepper n { r with refKind := .automaticVerify, takenOver := false }
    else match r.position with
      | none => s.setStepper n { still with state := .unhomed }
      | some _ =>
        let idle := { still with state := .idle }
        if r.verifyDue then stepperBecomeIdle n (s.setStepper n idle) else s.setStepper n idle.seekStored
  | _ => s

/-- An expiry of a SEEKING stepper's reversal pause (R104). -/
def stepperPauseEnd (n : Stepper) (s : State) : State :=
  let r := s.stepper n
  match r.position with
  | none => s
  | some p => if p = r.target then stepperBecomeIdle n s else stepperSeekFrom n p s

/-! ## The Operation Slot -/

/-- The steppers of a mask, in stepper table order. -/
def maskSteppers (m : BitVec 8) : List Stepper := Stepper.all.filter (maskHas m)

/-- The two masks of a detail (Table 10-3). -/
def Detail.maskPair : Detail → BitVec 8 × BitVec 8
  | .masks a b => (a, b)
  | _ => (0, 0)

/-- A stepper outcome enters the detail (R174). -/
def Detail.record (d : Detail) (n : Stepper) (o : StepperOutcome) : Detail :=
  let (a, b) := d.maskPair
  match o with
  | .homed | .slipped => .masks (maskAdd a n) b
  | .faulted | .notReferenced => .masks a (maskAdd b n)
  | .verified => .masks a b

/-- HOME and VERIFY end DONE with an empty second mask and FAILED otherwise (R174). -/
def Detail.endState (d : Detail) : EndState := if d.maskPair.2 = 0 then .done else .failed

/-- The slot's request to one stepper, by the operation's kind (R173). -/
def slotRequest (w : OpWork) (n : Stepper) (s : State) : State × Option StepperOutcome :=
  match w with
  | .home _ => stepperHome n s
  | .verify _ => stepperVerify n s
  | .defrost | .purge _ => (s, none)

/-- The slot's stepper in hand. -/
def setInHand (n : Option Stepper) (s : State) : State :=
  s.setOps { s.ops with slot := s.ops.slot.map fun op => { op with inHand := n } }

/-- A stepper outcome is recorded in the detail (R174). -/
def slotRecord (n : Stepper) (o : StepperOutcome) (s : State) : State :=
  s.setOps { s.ops with status := { s.ops.status with detail := s.ops.status.detail.record n o } }

/-- The operation ends with the detail recorded so far (R174). -/
def slotFinish (e : EndState) (s : State) : State := slotEnd e s.ops.status.detail s

/-- The slot hands out the steppers that remain, one after another, until one is under way (R173, R174); an ABORT
AT-BOUNDARY hands out none. -/
def slotWork (w : OpWork) : List Stepper → State → State
  | [], s => slotFinish s.ops.status.detail.endState s
  | n :: rest, s =>
    if abortPending s then slotFinish .aborted s
    else
      let x := slotRequest w n (setInHand (some n) s)
      match x.2 with
      | none => x.1
      | some o => slotWork w rest (slotRecord n o x.1)

/-- A stepper's outcome reaches the slot (R174). -/
def slotOutcome (n : Stepper) (o : StepperOutcome) (s : State) : State :=
  match s.ops.slot with
  | some op =>
    if op.inHand = some n then
      slotWork op.work ((maskSteppers op.work.mask).filter fun m => decide (n.pos < m.pos)) (slotRecord n o s)
    else s
  | none => s

/-- Delivers a stepper operation's outcome to the slot. -/
def deliverOutcome (n : Stepper) (x : State × Option StepperOutcome) : State :=
  match x.2 with
  | some o => slotOutcome n o x.1
  | none => x.1

/-- What an offer to the slot is answered (R173). -/
inductive OfferAnswer where
  | accepted (clamped : Bool) | badIndex | busy | notApplicable
  deriving DecidableEq, Repr

/-- The operation a kind code and a two-byte argument name (R173, Table 11-4); none where the form is refused. -/
def opWorkOf (kind arg : Nat) : Option OpWork :=
  match kind with
  | 1 => if arg = 0 ∨ 255 < arg then none else some (.home (BitVec.ofNat 8 arg))
  | 2 => if arg = 0 ∨ 255 < arg then none else some (.verify (BitVec.ofNat 8 arg))
  | 3 => some .defrost
  | 4 => some (.purge (clampNat 1 purgeMax arg))
  | _ => none

/-- The checks of an offer, in order: form, occupancy, applicability (R173). -/
def offerAnswer (kind arg : Nat) (s : State) : OfferAnswer :=
  match opWorkOf kind arg with
  | none => .badIndex
  | some w =>
    if s.ops.slot.isSome then .busy
    else match w with
      | .defrost => if s.psq.inRunHeat then .accepted false else .notApplicable
      | .purge n => .accepted (decide (n ≠ arg))
      | _ => .accepted false

/-- An accepted operation takes the slot and starts in its block (R173). -/
def slotStart (w : OpWork) (src : Source) (s : State) : State :=
  let s1 := s.setOps ⟨some ⟨w, src, false, none⟩, ⟨some w.kind, some src, .running, .zero⟩⟩
  match w with
  | .home m | .verify m => slotWork w (maskSteppers m) s1
  | .defrost => defrostStart .operation s1
  | .purge n => purgeStart n s1

/-- The stepper in hand is aborted (R109, R175). -/
def abortInHand (op : Operation) (s : State) : State :=
  match op.inHand with
  | some n => stepperAbort n s
  | none => s

/-- ABORT NOW in an occupied slot (R175). -/
def slotAbortNow (op : Operation) (s : State) : State :=
  match op.work with
  | .home _ | .verify _ => slotFinish .aborted (abortInHand op s)
  | .defrost => plantDefrostAbort s
  | .purge _ => purgeAbort s

/-- ABORT in an EMPTY slot (R175): the status record resets and a pending OPERATION END is withdrawn. -/
def slotAbortEmpty (s : State) : State :=
  (s.setOps { s.ops with status := .reset }).setNotices { s.notices with operationEnd := none }

/-- ABORT NOW (R175). -/
def abortNowEffect (s : State) : State :=
  match s.ops.slot with
  | some op => slotAbortNow op s
  | none => slotAbortEmpty s

/-- ABORT AT-BOUNDARY (R175). -/
def abortBoundaryEffect (s : State) : State :=
  match s.ops.slot with
  | some op =>
    match op.work with
    | .defrost => plantDefrostAbort s
    | _ => s.setOps { s.ops with slot := some { op with abortPending := true } }
  | none => slotAbortEmpty s

/-- The slot's part of a warm restart (R174): the operation ends as by an ABORT NOW, its block having taken its own part
already; the detail of a DEFROST is its end cause ABORTED (log 21). -/
def slotRestart (s : State) : State :=
  match s.ops.slot with
  | some op =>
    match op.work with
    | .home _ | .verify _ => slotFinish .aborted (abortInHand op s)
    | .defrost => slotEnd .aborted (.cause .aborted) s
    | .purge _ => slotEnd .aborted (.periods s.aqu.periodsRun) s
  | none => s

end Sys2Proof.Machine
end

