-- ==== Sys2Proof/Machine/Decks.lean ====
section
/-! DEFINITION. Heaters and blowers of the two decks (06): blocks, after-run, overheat cut, relay outputs, blower stages,
spin-up and idle stop. -/

namespace Sys2Proof.Machine

/-- Watts of one heater step (R112). -/
def heaterStep : Nat := 500
/-- Heater relay outputs (00, Table 2; R112). -/
def relayOutputs : Nat := 12
/-- Overheat cut, s (R113). -/
def cutTime : Nat := 120
/-- Supply-air value above which the cut starts (R113). -/
def cutLimit : Int := 600
/-- After-run, s (R114). -/
def afterRunTime : Nat := 60
/-- Spin-up of a blower, s (R115). -/
def spinUpTime : Nat := 3
/-- Quiet passes that stop a blower (R116). -/
def idleStopPasses : Nat := 9

/-- "Overheat cut" as the Share Allocator sees it: the cut timer runs, or the supply channel is LOST (R117). -/
def DeckRec.overheat (r : DeckRec) : Bool := r.cutTimer.isSome || decide (r.supply = .lost)

/-- A deck's heaters are blocked (R113). -/
def DeckRec.blocked (r : DeckRec) : Bool := !r.running || r.overheat

/-- Idle-stop hold (R116). -/
def DeckRec.idleHold (r : DeckRec) : Bool := decide (0 < r.stage) && decide (r.idleCount < idleStopPasses)

/-- A deck's steps on, over its three zones. -/
def deckSteps (d : Deck) (t : Zones Nat) : Nat := ((deckZones d).map t.get).sum

/-- The steps on of one deck's zones replaced. -/
def withDeckSteps (d : Deck) (f : Zone → Nat) (t : Zones Nat) : Zones Nat :=
  .ofFn fun z => if zoneDeck z = d then f z else t.get z

/-- The after-run timer when a deck's heater power goes from `before` to `after` steps (R114). -/
def afterRunNext (before after : Nat) (t : Timer) : Timer :=
  if 0 < before ∧ after = 0 then Timer.seconds afterRunTime
  else if before = 0 ∧ 0 < after then none
  else t

/-- A deck's steps on change, with the after-run of R114. -/
def setDeckSteps (d : Deck) (f : Zone → Nat) (s : State) : State :=
  let t := withDeckSteps d f s.act.stepsOn
  let r := s.deck d
  (s.setAct { s.act with stepsOn := t }).setDeck d
    { r with afterRun := afterRunNext (deckSteps d s.act.stepsOn) (deckSteps d t) r.afterRun }

/-- A block begins or holds: the deck's steps on are 0 (R113). -/
def blockDeck (d : Deck) (s : State) : State := setDeckSteps d (fun _ => 0) s

/-- Heater grants reach one deck (R112). -/
def deckGrants (g : Zones Nat) (d : Deck) (s : State) : State :=
  setDeckSteps d (fun z => if (s.deck d).blocked then 0 else g.get z) s

/-- The relay outputs of each zone by the kmax table (R112): in table order, from output 1 upward, while outputs remain. -/
def assignRelays (kmax : Zones Nat) : Zones Relays :=
  let u1 := 1
  let u2 := u1 + kmax.u1
  let u3 := u2 + kmax.u2
  let l1 := u3 + kmax.u3
  let l2 := l1 + kmax.l1
  let e := l2 + kmax.l2
  let take := fun first k => (⟨first, min k (relayOutputs + 1 - first)⟩ : Relays)
  ⟨take u1 kmax.u1, take u2 kmax.u2, take u3 kmax.u3, take l1 kmax.l1, take l2 kmax.l2, take e kmax.e⟩

/-- Whether a relay output is switched on (R112): a zone's steps on drive its outputs from its first upward. -/
def relayOn (a : Act) (output : Nat) : Bool :=
  Zone.all.any fun z =>
    let r := a.relays.get z
    decide (r.first ≤ output) && decide (output < r.first + min r.count (a.stepsOn.get z))

/-- Heater grants arrive, from a pass or a shedding (R112). -/
def actGrants (g : Zones Nat) (s : State) : State :=
  let s1 := s.setAct { s.act with relays := assignRelays (.ofFn fun z => (s.zone z).kmax) }
  deckGrants g .lower (deckGrants g .upper s1)

/-- The stage applied becomes n (R115). Stage 0 is a block under R113 whose fall starts no after-run (R114). -/
def setStage (d : Deck) (n : Nat) (s : State) : State :=
  let r := s.deck d
  if n = 0 then
    (s.setAct { s.act with stepsOn := withDeckSteps d (fun _ => 0) s.act.stepsOn }).setDeck d
      { r with stage := 0, running := false, spinUp := none }
  else if r.stage = 0 then s.setDeck d { r with stage := n, running := false, spinUp := Timer.seconds spinUpTime }
  else s.setDeck d { r with stage := n }

/-- The stage a commanded stage is applied as (R115). -/
def DeckRec.applied (r : DeckRec) (commanded : Nat) : Nat :=
  if 0 < commanded then commanded
  else if r.stage = 0 then 0
  else if r.afterRun.isSome || r.idleHold then 1
  else 0

/-- A commanded stage arrives for a deck (R115). -/
def deckStage (d : Deck) (commanded : Nat) (s : State) : State := setStage d ((s.deck d).applied commanded) s

/-- The idle-stop count at an arrival of pass results, by the decided stage before the idle-stop floor (R116). -/
def DeckRec.idleCountAt (r : DeckRec) (decided : Nat) : Nat :=
  if decided = 0 ∧ r.afterRun = none ∧ 0 < r.stage then satInc idleStopPasses r.idleCount else 0

/-- A pass's stages reach one deck: the idle-stop count, then the stage (R115, R116). -/
def deckPass (d : Deck) (commanded decided : Nat) (s : State) : State :=
  let n := (s.deck d).idleCountAt decided
  if idleStopPasses ≤ n then setStage d 0 (s.setDeck d { s.deck d with idleCount := 0 })
  else deckStage d commanded (s.setDeck d { s.deck d with idleCount := n })

/-! ## Samples, reports, expiries, restart -/

/-- A good sample of a deck's supply air (R113). -/
def supplySample (d : Deck) (v : Int) (s : State) : State :=
  let r := s.deck d
  let r1 := { r with supply := .good, cutTimer := if cutLimit < v then Timer.seconds cutTime else r.cutTimer }
  let s1 := s.setDeck d r1
  if r1.blocked then blockDeck d s1 else s1

/-- A HELD or LOST report on a deck's supply air (R113). -/
def supplyQuality (d : Deck) (q : Quality) (s : State) : State :=
  let r1 := { s.deck d with supply := q }
  let s1 := s.setDeck d r1
  if r1.blocked then blockDeck d s1 else s1

/-- Expiry of a spin-up (R115). -/
def spinUpDone (d : Deck) (s : State) : State :=
  if (s.deck d).spinUp.isSome then s.setDeck d { s.deck d with running := true, spinUp := none } else s

/-- Expiry of an overheat cut (R113). -/
def cutDone (d : Deck) (s : State) : State := s.setDeck d { s.deck d with cutTimer := none }

/-- Expiry of an after-run (R114). -/
def afterRunDone (d : Deck) (s : State) : State := s.setDeck d { s.deck d with afterRun := none }

/-- The Actuator Driver's part of a warm restart (R118). -/
def decksRestart (s : State) : State := blockDeck .lower (blockDeck .upper s)

end Sys2Proof.Machine
end

