-- ==== Sys2Proof/Machine/Share.lean ====
section
/-! DEFINITION. The Share Allocator (02): allowance, the seven steps of the share pass, shedding. The figures of a pass are
functions of the state it reads; `sharePass` runs the steps in order and hands the results out. -/

namespace Sys2Proof.Machine

/-- Least compressor command above 0, W (R34). -/
def compressorMin : Nat := 1500
/-- Largest compressor command, W (R34). -/
def compressorMax : Nat := 15000
/-- Largest rise of the command in one pass, W (R34). -/
def compressorRamp : Nat := 1500
/-- Freshness of a host value, s (R23). -/
def validityTime : Nat := 10
/-- Largest allowance and runner cap, W (R23, R25). -/
def allowanceMax : Nat := 40000
/-- Allowance in use at most after an expiry, W (R24). -/
def allowanceFallback : Nat := 4000

/-! ## Step 1: deck blower stages (R27, R28) -/

/-- Power of a stage (R44: stage 0 is fixed at 0 W). -/
def stagePower (t : BlowerStages BlowerRow) : Nat → Nat
  | 1 => t.s1.power
  | 2 => t.s2.power
  | 3 => t.s3.power
  | 4 => t.s4.power
  | _ => 0

/-- Airflow of a stage (R44). -/
def stageAirflow (t : BlowerStages BlowerRow) : Nat → Nat
  | 1 => t.s1.airflow
  | 2 => t.s2.airflow
  | 3 => t.s3.airflow
  | 4 => t.s4.airflow
  | _ => 0

/-- B: the sum of the two decks' stage powers (R28). -/
def blowerPower (t : BlowerStages BlowerRow) (st : Decks Nat) : Nat := stagePower t st.upper + stagePower t st.lower

/-- The total supply airflow (R28). -/
def supplyAirflow (t : BlowerStages BlowerRow) (st : Decks Nat) : Nat := stageAirflow t st.upper + stageAirflow t st.lower

/-- The stage of a largest abs(demand) (R27). -/
def demandStage (m : Nat) : Nat := if m ≤ 250 then 1 else if m ≤ 500 then 2 else if m ≤ 750 then 3 else 4

/-- The largest abs(demand) among a deck's zones that are not OFF (R27). -/
def deckDemand (d : Deck) (s : State) : Nat :=
  ((deckZones d).map fun z => if (s.zone z).mode = .off then 0 else (s.zone z).demand.natAbs).foldl max 0

/-- The stage decided from a deck's zones (R27). -/
def zoneStage (d : Deck) (s : State) : Nat :=
  if (deckZones d).all fun z => decide ((s.zone z).mode = .off) then 0 else demandStage (deckDemand d s)

/-- The floor stage of a deck, without the idle-stop floor (R27). -/
def floorBase (d : Deck) (s : State) : Nat :=
  if s.aqu.purgeActive then 4
  else if ((deckZones d).any fun z => decide (0 < (s.zone z).occupancy)) || (s.deck d).afterRun.isSome then 1
  else 0

/-- The floor stage of a deck (R27). -/
def floorStage (d : Deck) (s : State) : Nat := max (floorBase d s) (if (s.deck d).idleHold then 1 else 0)

/-- The decided stage before the idle-stop floor (R27). -/
def decidedBase (d : Deck) (s : State) : Nat := max (zoneStage d s) (floorBase d s)

/-- The decided stage (R27). -/
def decidedStage (d : Deck) (s : State) : Nat := max (zoneStage d s) (floorStage d s)

/-- One deck's stage is lowered one at a time while the power of both exceeds A, down to its floor (R28). -/
def lowerStage (power : Nat → Nat) (other a floor : Nat) : Nat → Nat
  | 0 => 0
  | k + 1 =>
    if other + power (k + 1) ≤ a ∨ k + 1 ≤ floor then k + 1 else lowerStage power other a floor k

/-- The stages lowered to fit A: the lower deck first, then the upper (R28). -/
def fitStages (t : BlowerStages BlowerRow) (a : Nat) (floors st : Decks Nat) : Decks Nat :=
  let lower := lowerStage (stagePower t) (stagePower t st.upper) a floors.lower st.lower
  ⟨lowerStage (stagePower t) (stagePower t lower) a floors.upper st.upper, lower⟩

/-- The commanded stages of a pass (R28). -/
def passStages (s : State) : Decks Nat :=
  fitStages s.sha.blowers s.sha.effective (.ofFn fun d => floorStage d s) (.ofFn fun d => decidedStage d s)

/-! ## Step 2: plant direction (R29) -/

/-- H (R29). -/
def heatCall (s : State) : Nat :=
  zoneSum fun z => if (s.zone z).mode = .regulate then (s.zone z).weight * (s.zone z).demand.toNat else 0

/-- C (R29). -/
def coolCall (s : State) : Nat :=
  zoneSum fun z => if (s.zone z).mode = .regulate then (s.zone z).weight * (-(s.zone z).demand).toNat else 0

/-- The direction with its idle and flip counts. -/
structure DirectionCounts where
  direction : Direction
  idle : Nat
  flip : Nat
  deriving DecidableEq, Repr

/-- A working direction's counts and transition (R29): `own` and `other` are the calls in and against it. -/
def workingStep (d : Direction) (opposite : Direction) (own other : Nat) (c : DirectionCounts) : DirectionCounts :=
  let idle := if own < 300 ∧ other < 300 then c.idle + 1 else 0
  let flip := if own + 1500 < other then c.flip + 1 else 0
  if 9 ≤ idle then ⟨.idle, 0, 0⟩ else if 5 ≤ flip then ⟨opposite, 0, 0⟩ else ⟨d, idle, flip⟩

/-- The direction of a pass (R29). -/
def directionStep (h c : Nat) (k : DirectionCounts) : DirectionCounts :=
  match k.direction with
  | .idle =>
    if 800 ≤ h ∧ c ≤ h then ⟨.heat, 0, 0⟩ else if 800 ≤ c ∧ h < c then ⟨.cool, 0, 0⟩ else ⟨.idle, 0, 0⟩
  | .heat => workingStep .heat .cool h c k
  | .cool => workingStep .cool .heat c h k

/-- Step 2: the direction is written and its change reported to the Air Quality Unit (R29, R56). -/
def passDirection (s : State) : State :=
  let k := directionStep (heatCall s) (coolCall s) ⟨s.sha.direction, s.sha.idleCount, s.sha.flipCount⟩
  airDirection s.sha.direction k.direction
    (s.setSha { s.sha with direction := k.direction, idleCount := k.idle, flipCount := k.flip })

/-! ## Step 3: need (R31) -/

/-- Whether a zone is a need zone in a direction (R31). -/
def ZoneRec.isNeed (r : ZoneRec) (d : Direction) : Bool :=
  match r.mode, d with
  | .regulate, .heat => decide (0 < r.demand)
  | .regulate, .cool => decide (r.demand < 0)
  | _, _ => false

/-- q: the need of a zone, 0 for a zone that has none (R31). -/
def ZoneRec.need (r : ZoneRec) (d : Direction) : Nat := if r.isNeed d then r.weight * r.demand.natAbs else 0

/-- A served need zone (R31). -/
def ZoneRec.served (r : ZoneRec) (d : Direction) : Bool := r.isNeed d && r.flapUsable

/-- N (R31). -/
def totalNeed (s : State) : Nat :=
  zoneSum fun z => if (s.zone z).served s.sha.direction then (s.zone z).need s.sha.direction else 0

/-! ## Step 4: compressor power command (R26, R33 to R35) -/

/-- The COP between two rows, the division truncated toward zero (R33). -/
def interpolate (ta tb ca cb t : Int) : Nat := (ca + ((cb - ca) * (t - ta)).tdiv (tb - ta)).toNat

/-- One COP of the performance table: heating or cooling column, at a temperature (R33). -/
def copAt (perf : PerfRows PerfRow) (column : PerfRow → Nat) (t : Int) : Nat :=
  let between := fun (a b : PerfRow) => interpolate a.temp b.temp (column a) (column b) t
  if t ≤ perf.r1.temp then column perf.r1
  else if perf.r6.temp ≤ t then column perf.r6
  else if t < perf.r2.temp then between perf.r1 perf.r2
  else if t < perf.r3.temp then between perf.r2 perf.r3
  else if t < perf.r4.temp then between perf.r3 perf.r4
  else if t < perf.r5.temp then between perf.r4 perf.r5
  else between perf.r5 perf.r6

/-- The COP of a pass: heating column for HEAT, cooling for COOL, at the outdoor value or 0 (R33). -/
def passCop (s : State) : Nat :=
  let t := s.sha.outdoor.getD 0
  match s.sha.direction with
  | .heat => copAt s.sha.perf (·.heating) t
  | .cool => copAt s.sha.perf (·.cooling) t
  | .idle => 0

/-- The Plant Sequencer is delivering (R26). -/
def Psq.delivering (p : Psq) : Bool :=
  match p.state, p.mode with
  | .run, some .heat | .run, some .cool | .run, some .dehum => true
  | _, _ => false

/-- Heat-pump capacity is available to a pass (R26). -/
def capacityAvailable (p : Psq) (d : Direction) : Bool :=
  match p.state, p.mode, d with
  | .run, some .heat, .heat => true
  | .run, some .cool, .cool => true
  | .run, some .dehum, .cool => true
  | _, _, _ => false

/-- Pe_need (R34). -/
def powerNeeded (n cop : Nat) : Nat := ceilDiv (n * 100) cop

/-- Pe with capacity available (R34). -/
def compressorCommand (n cop pa prev : Nat) : Nat :=
  let p := min (min (powerNeeded n cop) pa) (min compressorMax (prev + compressorRamp))
  if 0 < p ∧ p < compressorMin then (if 0 < powerNeeded n cop ∧ compressorMin ≤ pa then compressorMin else 0) else p

/-- Pe of a pass (R26, R34). -/
def passPe (pa : Nat) (s : State) : Nat :=
  if capacityAvailable s.psq s.sha.direction then compressorCommand (totalNeed s) (passCop s) pa s.sha.command else 0

/-- Qd of a pass (R34). -/
def passQd (pe : Nat) (s : State) : Nat :=
  if capacityAvailable s.psq s.sha.direction then pe * passCop s / 100 else 0

/-- A starved pass (R35). -/
def starved (n pa : Nat) : Bool := decide (0 < n) && decide (pa < compressorMin)

/-- The starved count of a pass (R35). -/
def starvedCountAfter (n pa : Nat) (running : Bool) (count : Nat) : Nat :=
  if starved n pa && running then satInc 5 count else 0

/-- The starvation hold of a pass (R35). -/
def starvationHoldAfter (n pa count : Nat) (hold : Bool) : Bool := starved n pa && (hold || decide (5 ≤ count))

/-- The wanted mode of a pass (R30). -/
def wantedMode (hold : Bool) (d : Direction) (h : HumidityState) : WantedMode :=
  if hold then .idle
  else match d with
    | .idle => .idle
    | .heat => .heat
    | .cool => if h = .dryNeeded then .dehum else .cool

/-! ## Step 5: shares (R36) -/

/-- The served need zone with the largest need, the earlier in table order among equals (R36). -/
def neediest (s : State) : Option Zone :=
  Zone.all.foldl (fun best z =>
    if (s.zone z).served s.sha.direction then
      match best with
      | none => some z
      | some b => if (s.zone b).need s.sha.direction < (s.zone z).need s.sha.direction then some z else some b
    else best) none

/-- A zone's share before the rest: floor(q × D / N) (R36). -/
def baseShare (cap n : Nat) (s : State) (z : Zone) : Nat :=
  if (s.zone z).served s.sha.direction then (s.zone z).need s.sha.direction * cap / n else 0

/-- A zone's share of the capacity D (R36). -/
def zoneShare (cap n : Nat) (s : State) (z : Zone) : Nat :=
  baseShare cap n s z + (if neediest s = some z then cap - zoneSum (baseShare cap n s) else 0)

/-! ## Step 6: heater steps (R37, R38) -/

/-- The boost mark of the demand set (R20). -/
def boostMark (s : State) : Bool := (s.door .d1).isOpen && decide ((s.zone .e).mode = .regulate)

/-- Zone E is boosted (R20, R37). -/
def boostedE (s : State) : Bool := boostMark s && decide (s.sha.direction = .heat)

/-- A REGULATE zone that calls for heat. -/
def ZoneRec.callsHeat (r : ZoneRec) : Bool := decide (r.mode = .regulate) && decide (0 < r.demand)

/-- Admission by plant and direction (R37). -/
def admitsByPlant (s : State) (z : Zone) : Bool :=
  if s.psq.delivering then
    match s.sha.direction with
    | .heat => (s.zone z).isNeed .heat
    | .cool => decide (s.aqu.humidity = .dryNeeded) && (s.zone z).callsHeat
    | .idle => false
  else (s.zone z).callsHeat

/-- A zone is admitted to heater service (R37). -/
def admitted (s : State) (z : Zone) : Bool :=
  (admitsByPlant s z || (decide (z = .e) && boostedE s)) && (s.deck (zoneDeck z)).running &&
    !(s.deck (zoneDeck z)).overheat

/-- A zone's shortfall (R36): below 0 where the rest lifts the neediest zone's share above its need (log 23). An admitted
zone is one that stays admitted (log 23). -/
def zoneShortfall (cap n : Nat) (s : State) (z : Zone) : Int :=
  let r := s.zone z
  if r.isNeed s.sha.direction then
    (if r.flapUsable then r.need s.sha.direction - zoneShare cap n s z else r.need s.sha.direction)
  else if admitted s z then r.weight * r.demand.toNat
  else 0

/-- A zone goes into a list ordered by shortfall, largest first, before its equals. -/
def insertByShortfall (sf : Zone → Int) (z : Zone) : List Zone → List Zone
  | [] => [z]
  | y :: t => if sf y ≤ sf z then z :: y :: t else y :: insertByShortfall sf z t

/-- The service order (R38): a boosted E first, then by shortfall, then by table order. -/
def serviceOrder (sf : Zone → Int) (s : State) : List Zone :=
  let first := boostedE s && admitted s .e
  (if first then [.e] else []) ++
    (Zone.all.filter fun z => admitted s z && !(first && decide (z = .e))).foldr (insertByShortfall sf) []

/-- The steps a zone wants (R38). -/
def stepsWanted (sf : Zone → Int) (s : State) (z : Zone) : Nat :=
  if z = .e ∧ boostedE s then (s.zone z).kmax else min (s.zone z).kmax (ceilDiv (sf z).toNat heaterStep)

/-- The zones of the service order are served one after another from the heater power left (R38). -/
def serve (sf : Zone → Int) (s : State) : List Zone → Nat → Zones Nat → Zones Nat
  | [], _, g => g
  | z :: t, left, g =>
    let k := min (stepsWanted sf s z) (min (left / heaterStep) ((s.zone z).granted + 1))
    serve sf s t (left - heaterStep * k) (g.set z k)

/-! ## Step 7: flap targets (R39) -/

/-- A zone's flap target (R39). -/
def flapTarget (share : Nat) (s : State) (z : Zone) : Nat :=
  let r := s.zone z
  if s.psq.defrostMark = .none ∧ r.served s.sha.direction ∧ 0 < share
  then r.flapMin + (r.flapMax - r.flapMin) * r.demand.natAbs / 1000 else r.flapMin

/-! ## The pass (R26, R40, R41) -/

/-- What steps 3 to 7 of a pass decide. -/
structure PassFigures where
  need : Nat
  pe : Nat
  qd : Nat
  starvedCount : Nat
  hold : Bool
  wanted : WantedMode
  zones : Zones ZoneShare
  order : List Zone
  flaps : Zones Nat
  damper : Nat
  deriving DecidableEq, Repr

/-- Steps 3 to 7, from the state after step 2 with the power available Pa (R31 to R39). -/
def passFigures (pa : Nat) (s : State) : PassFigures :=
  let n := totalNeed s
  let pe := passPe pa s
  let qd := passQd pe s
  let count := starvedCountAfter n pa (decide (s.psq.state = .run)) s.sha.starvedCount
  let hold := starvationHoldAfter n pa count s.sha.starvationHold
  let cap := min qd n
  let sf := zoneShortfall cap n s
  let order := serviceOrder sf s
  let g := serve sf s order (pa - pe) (.const 0)
  { need := n, pe := pe, qd := qd, starvedCount := count, hold := hold
    wanted := wantedMode hold s.sha.direction s.aqu.humidity
    zones := .ofFn fun z => ⟨zoneShare cap n s z, sf z, g.get z⟩
    order := order
    flaps := .ofFn fun z => flapTarget (zoneShare cap n s z) s z
    damper := s.aqu.damper }

/-- Total shortfall of a pass (R36). -/
def PassFigures.totalShortfall (p : PassFigures) : Int := zoneSum fun z => (p.zones.get z).shortfall

/-- Heater power of a pass (R38). -/
def PassFigures.heaterPower (p : PassFigures) : Nat := heaterStep * zoneSum fun z => (p.zones.get z).grant

/-- The last share result of a pass (R41). -/
def passResult (st : Decks Nat) (b pa : Nat) (p : PassFigures) (s : State) : ShareResult :=
  { time := s.time, need := p.need, a := s.sha.effective, b := b, pa := pa, pe := p.pe, qd := p.qd
    direction := s.sha.direction, wanted := p.wanted, starvedCount := p.starvedCount, hold := p.hold, stages := st
    zones := p.zones, totalShortfall := p.totalShortfall, heaterPower := p.heaterPower, order := p.order, shed := false }

/-- The results a pass stores: the result record, the commands handed out, the zone records (R40, R41). -/
def passStore (st : Decks Nat) (b pa : Nat) (p : PassFigures) (s : State) : State :=
  (s.setSha { s.sha with
      starvedCount := p.starvedCount, starvationHold := p.hold, command := p.pe, stages := st
      last := passResult st b pa p s }).setZones
    (.ofFn fun z => { s.zone z with
      share := (p.zones.get z).share, shortfall := (p.zones.get z).shortfall, granted := (p.zones.get z).grant })

/-- The flap stepper of a zone (Table 6-2). -/
def zoneFlap : Zone → Stepper
  | .u1 => .fU1
  | .u2 => .fU2
  | .u3 => .fU3
  | .l1 => .fL1
  | .l2 => .fL2
  | .e => .fE

/-- The Actuator Driver applies a pass's results: stages, grants, targets (R111). -/
def actPass (st decided : Decks Nat) (p : PassFigures) (s : State) : State :=
  let s1 := deckPass .lower st.lower decided.lower (deckPass .upper st.upper decided.upper s)
  let s2 := actGrants (.ofFn fun z => (p.zones.get z).grant) s1
  let s3 := Zone.all.foldl (fun s z => stepperTarget (zoneFlap z) (p.flaps.get z) s) s2
  stepperTarget .fad p.damper s3

/-- The records a pass hands the Trace Queue: one PERIOD, then one ZONE per zone in table order (R41). -/
def passTrace (b : Nat) (p : PassFigures) (s : State) : State :=
  Zone.all.foldl (fun s z =>
      offer (.zone z (p.zones.get z).share (p.zones.get z).shortfall (p.zones.get z).grant (p.flaps.get z)) s)
    (offer (.period p.need s.sha.effective b p.pe p.qd p.totalShortfall p.heaterPower) s)

/-- One share pass (R26): steps 1 to 7, then the results are handed out (R40; order log 16). -/
def sharePass (s0 : State) : State :=
  let st := passStages s0
  let b := blowerPower s0.sha.blowers st
  let pa := s0.sha.effective - b
  let decided : Decks Nat := .ofFn fun d => decidedBase d s0
  let s2 := passDirection (airPeriod (supplyAirflow s0.sha.blowers st) s0)
  let p := passFigures pa s2
  passTrace b p (actPass st decided p (plantPeriod p.wanted p.pe (passStore st b pa p s2)))

/-! ## Shedding on allowance change (R42, R43) -/

/-- The heater power of the standing grants (R42). -/
def standingHeat (s : State) : Nat := heaterStep * zoneSum fun z => (s.zone z).granted

/-- Steps are removed from one zone while the total exceeds A: the grant left and the total left (R42). -/
def shedSteps (a : Nat) : Nat → Nat → Nat × Nat
  | 0, total => (0, total)
  | k + 1, total => if total ≤ a then (k + 1, total) else shedSteps a k (total - heaterStep)

/-- Heaters are shed along a list of zones, the latest in the service order first (R42, step 1). -/
def shedHeaters (a : Nat) : List Zone → Zones Nat → Nat → Zones Nat × Nat
  | [], g, total => (g, total)
  | z :: t, g, total =>
    let x := shedSteps a (g.get z) total
    shedHeaters a t (g.set z x.1) x.2

/-- The compressor command after step 2 of a shedding (R42). -/
def shedPower (a b pe heat : Nat) : Nat :=
  if a < b + pe + heat then (if a - b - heat < compressorMin then 0 else a - b - heat) else pe

/-- What the standing commands are, and what a shedding leaves of them: grants, compressor command, stages. -/
structure Commands where
  grants : Zones Nat
  pe : Nat
  stages : Decks Nat
  deriving DecidableEq, Repr

/-- The commands that stand. -/
def standingCommands (s : State) : Commands := ⟨.ofFn fun z => (s.zone z).granted, s.sha.command, s.sha.stages⟩

/-- The commands after the three steps of a shedding (R42). B is by the blower stage table as it stands, also before the
first pass that uses it (DESIGN CHOICE, log 37). -/
def shedCommands (s : State) : Commands :=
  let a := s.sha.effective
  let b := blowerPower s.sha.blowers s.sha.stages
  let x := shedHeaters a s.sha.last.order.reverse (standingCommands s).grants (b + s.sha.command + standingHeat s)
  { grants := x.1
    pe := shedPower a b s.sha.command (heaterStep * zoneSum x.1.get)
    stages :=
      if a < b then fitStages s.sha.blowers a (.ofFn fun d => floorStage d s) s.sha.stages else s.sha.stages }

/-- A deck's stage is handed out where the shedding lowered it (R43). -/
def handStage (d : Deck) (old new : Decks Nat) (s : State) : State :=
  if new.get d < old.get d then deckStage d (new.get d) s else s

/-- The Plant Sequencer and the Actuator Driver take what a shedding cut (R43; stages before grants, R111); what it left
as it stood is not handed out (log 14). -/
def handShed (old new : Commands) (s : State) : State :=
  let s1 := if new.pe = old.pe then s else plantCommand new.pe s
  let s2 := handStage .lower old.stages new.stages (handStage .upper old.stages new.stages s1)
  if new.grants = old.grants then s2 else actGrants new.grants s2

/-- The last share result after a shedding (R43); the stages stay as the pass left them (log 15). -/
def shedResult (a b pe : Nat) (g : Zones Nat) (r : ShareResult) : ShareResult :=
  { r with
    a := a, b := b, pa := a - b, pe := pe, shed := true
    zones := .ofFn fun z => { r.zones.get z with grant := g.get z }
    heaterPower := heaterStep * zoneSum g.get }

/-- The commands a shedding leaves are written, and the last share result shows them (R43). -/
def shedStore (c : Commands) (s : State) : State :=
  let a := s.sha.effective
  (s.setSha { s.sha with
    command := c.pe, stages := c.stages
    last := shedResult a (blowerPower s.sha.blowers c.stages) c.pe c.grants s.sha.last }).setZones
      (.ofFn fun z => { s.zone z with granted := c.grants.get z })

/-- The check of R42 against the effective allowance, with the results of R43. A shedding that cuts nothing leaves all
state as it stands (R43). -/
def shedCheck (s : State) : State :=
  if blowerPower s.sha.blowers s.sha.stages + s.sha.command + standingHeat s ≤ s.sha.effective then s
  else if shedCommands s = standingCommands s then s
  else handShed (standingCommands s) (shedCommands s) (shedStore (shedCommands s) s)

/-- A: the lower of the allowance in use and the runner cap (R22, R25). -/
def effectiveOf (inUse : Nat) (cap : Option Nat) : Nat :=
  match cap with
  | some c => min inUse c
  | none => inUse

/-- A is recomputed and the check of R42 made (R23 to R25, R45). -/
def recomputeA (s : State) : State :=
  shedCheck (s.setSha { s.sha with effective := effectiveOf s.sha.inUse s.sha.runnerCap })

/-- An ALLOWANCE request's effect (R23). -/
def allowanceWrite (v : Nat) (s : State) : State :=
  let h := clampNat 0 allowanceMax v
  recomputeA (s.setSha { s.sha with
    hostValue := h, allowState := .fresh, age := 0, inUse := h, validityTimer := Timer.seconds validityTime })

/-- Expiry of the validity timer (R24). -/
def validityExpiry (s : State) : State :=
  if s.sha.validityTimer.isSome then
    let u := min s.sha.hostValue allowanceFallback
    recomputeA (raiseAllowanceExpired u
      (s.setSha { s.sha with allowState := .expired, inUse := u, validityTimer := none }))
  else s

/-- A second of the allowance's age (R23). -/
def ageTick (s : State) : State := s.setSha { s.sha with age := satInc 65535 s.sha.age }

/-- SET CAP completes (R25). -/
def capWrite (cap : Option Nat) (s : State) : State :=
  recomputeA (s.setSha { s.sha with runnerCap := cap.map (clampNat 0 allowanceMax) })

/-- The Share Allocator's part of a warm restart (R45), the zone records' grants already 0 (R21). -/
def shareRestart (s : State) : State :=
  let s1 := s.setSha { s.sha with
    direction := .idle, idleCount := 0, flipCount := 0, starvedCount := 0, starvationHold := false, runnerCap := none
    command := 0 }
  recomputeA (actGrants (.const 0) (plantCommand 0 s1))

end Sys2Proof.Machine
end

