-- ==== Sys2Proof/Machine/Sensors.lean ====
section
/-! DEFINITION. The Sensor Scanner and the Watch Unit (07): conversion, channel quality, the hand-out of samples and
reports to the user blocks, watches and their trips. -/

namespace Sys2Proof.Machine

/-! ## Watches (R129 to R133) -/

/-- A value is beyond the threshold (R127). -/
def WatchRec.beyond (w : WatchRec) (v : Int) : Bool :=
  match w.direction with
  | .above => decide (w.threshold < v)
  | .below => decide (v < w.threshold)

/-- A value is back past the hysteresis (R133). -/
def WatchRec.returned (w : WatchRec) (v : Int) : Bool :=
  match w.direction with
  | .above => decide (v < w.threshold - w.hysteresis)
  | .below => decide (w.threshold + w.hysteresis < v)

/-- A watch becomes ARMED with count 0 (R131 to R133). -/
def WatchRec.arm (w : WatchRec) : WatchRec := { w with state := .armed, count := 0 }

/-- A watch becomes DISARMED with count 0 (R127, R132). -/
def WatchRec.disarm (w : WatchRec) : WatchRec := { w with state := .disarmed, count := 0 }

/-- A watch trips at a sample (R130). -/
def watchTrip (i : Idx8) (v : Int) (s : State) : State :=
  let w := s.watch i
  let n := satInc 255 w.tripCount
  let s1 := s.setWatch i { w with state := .tripped, count := 0, tripCount := n, tripValue := some v }
  let s2 := if w.traceStart then startTrigger i s1 else s1
  let s3 := offer (.watch i w.channel v n) s2
  let s4 := if w.traceStop then stopTrigger i s3 else s3
  if w.notify then raiseWatchTrip ⟨i, w.channel, v, n, .ofFn fun j => (s4.watch j).state⟩ s4 else s4

/-- A good sample of a watch's channel (R129). -/
def watchTake (i : Idx8) (v : Int) (s : State) : State :=
  let w := s.watch i
  match w.state with
  | .disarmed => s
  | .armed =>
    if w.beyond v then
      (if w.persistence ≤ w.count + 1 then watchTrip i v s else s.setWatch i { w with count := w.count + 1 })
    else s.setWatch i { w with count := 0 }
  | .tripped => if w.autoRearm && w.returned v then s.setWatch i w.arm else s

/-- A good sample is taken by every watch of its channel (R129), in number order (DESIGN CHOICE, log 42). -/
def watchSample (c : Channel) (v : Int) (s : State) : State :=
  Idx8.all.foldl (fun s i => if (s.watch i).channel = c then watchTake i v s else s) s

/-- The WATCH TRIPPED test: a true answer consumes the trip (R131). -/
def watchConsume (i : Idx8) (s : State) : State × Bool :=
  if (s.watch i).state = .tripped then (s.setWatch i (s.watch i).arm, true) else (s, false)

/-- The Watch Unit's part of a warm restart (R127). -/
def watchesRestart (s : State) : State := s.setWch (.ofFn fun i => (s.watch i).disarm)

/-! ## Conversion (R121) -/

/-- Range of a channel (Table 7-1). -/
def channelRange : Channel → Int × Int
  | .pSuc | .pDis => (0, 400)
  | .rh => (0, 1000)
  | .co2U | .co2L => (0, 5000)
  | _ => (-400, 850)

/-- A raw reading that is a FAULT sample (R121). -/
def faultSample (raw : Nat) : Bool := decide (raw ≤ 15) || decide (4080 ≤ raw)

/-- The converted value before clamping (R121). -/
def ChannelRec.convert (r : ChannelRec) (raw : Nat) : Int := r.offset + ((raw : Int) * r.gain).tdiv 4096

/-- The converted value, clamped to the channel's range (R121). -/
def clampToRange (c : Channel) (v : Int) : Int := clampInt (channelRange c).1 (channelRange c).2 v

/-! ## Hand-out to the user blocks (Table 7-1) -/

/-- A good sample goes to the channel's user blocks. -/
def handSample (c : Channel) (v : Int) (s : State) : State :=
  match c with
  | .tU1 => s.setZone .u1 ((s.zone .u1).sample v)
  | .tU2 => s.setZone .u2 ((s.zone .u2).sample v)
  | .tU3 => s.setZone .u3 ((s.zone .u3).sample v)
  | .tL1 => s.setZone .l1 ((s.zone .l1).sample v)
  | .tL2 => s.setZone .l2 ((s.zone .l2).sample v)
  | .tE => s.setZone .e ((s.zone .e).sample v)
  | .tOut => plantOutdoorSample v (s.setSha { s.sha with outdoor := some v })
  | .tCoil => plantCoilSample v s
  | .tSupU => supplySample .upper v s
  | .tSupL => supplySample .lower v s
  | .tRet => s
  | .pSuc => plantSuctionSample v s
  | .pDis => plantDischargeSample v s
  | .rh | .co2U | .co2L => airSample c v s

/-- A HELD or LOST report on a zone temperature channel (R15, R16). -/
def zoneQuality (z : Zone) (q : Quality) (s : State) : State :=
  match q with
  | .held => s.setZone z (s.zone z).heldReport
  | .lost => s.setZone z (borrow s.zrg.zones z)
  | .good => s

/-- A HELD or LOST report goes to the channel's user blocks (R123, R124). -/
def handReport (c : Channel) (q : Quality) (s : State) : State :=
  match c with
  | .tU1 => zoneQuality .u1 q s
  | .tU2 => zoneQuality .u2 q s
  | .tU3 => zoneQuality .u3 q s
  | .tL1 => zoneQuality .l1 q s
  | .tL2 => zoneQuality .l2 q s
  | .tE => zoneQuality .e q s
  | .tOut | .tRet => s
  | .tSupU => supplyQuality .upper q s
  | .tSupL => supplyQuality .lower q s
  | .tCoil | .pSuc | .pDis => plantQuality c q s
  | .rh | .co2U | .co2L => airQuality c q s

/-! ## Samples and the loss timer (R120 to R126) -/

/-- Time in HELD before a channel is LOST, s (R123). -/
def lossTime : Nat := 30

/-- A SENSOR STATE notice for a channel as it stands (R126). -/
def raiseChannelState (c : Channel) (s : State) : State :=
  raiseSensorState ⟨c, (s.channel c).quality, (s.channel c).value, .ofFn fun k => (s.channel k).quality⟩ s

/-- A FAULT sample (R121, R123). -/
def takeFaultSample (c : Channel) (raw : Nat) (s : State) : State :=
  let r := { s.channel c with lastRaw := some raw, faultCount := satInc 65535 (s.channel c).faultCount }
  match r.quality with
  | .good => handReport c .held (s.setChannel c { r with quality := .held, lossTimer := Timer.seconds lossTime })
  | .held | .lost => s.setChannel c r

/-- A good sample (R121, R125): the record, the notice of a return from LOST, the user blocks, then the watches (DESIGN
CHOICE, log 43). -/
def takeGoodSample (c : Channel) (raw : Nat) (s : State) : State :=
  let r := s.channel c
  let u := r.convert raw
  let v := clampToRange c u
  let s1 := s.setChannel c { r with
    quality := .good, value := some v, clamped := decide (v ≠ u), lastRaw := some raw, lossTimer := none }
  let s2 := if r.quality = .lost then raiseChannelState c s1 else s1
  watchSample c v (handSample c v s2)

/-- A sample of a channel (R120, R121). -/
def takeSample (c : Channel) (raw : Nat) (s : State) : State :=
  if faultSample raw then takeFaultSample c raw s else takeGoodSample c raw s

/-- Expiry of a channel's loss timer (R124). -/
def lossExpiry (c : Channel) (s : State) : State :=
  let r := s.channel c
  if r.quality = .held ∧ r.lossTimer.isSome then
    raiseChannelState c (handReport c .lost (s.setChannel c { r with quality := .lost, lossTimer := none }))
  else s

end Sys2Proof.Machine
end

