-- ==== Sys2Proof/Machine/Store.lean ====
section
/-! DEFINITION. The stage store (R135): a list of (index, record) pairs in one canonical form, indices strictly rising
and below 128, and no pair equal to what an unlisted index reads as, an EMPTY place. -/

namespace Sys2Proof.Machine

/-- The places of the store (R135). -/
def storeSize : Nat := 128

/-- What a place holds. An unlisted place is EMPTY with last outcome NONE and pass count 0 (Table 8-2). -/
def storeGet : List (Nat × StageRec) → Nat → StageRec
  | [], _ => .reset
  | (j, r) :: t, i => if i = j then r else storeGet t i

/-- A write of one place, keeping the canonical form. -/
def storePut : List (Nat × StageRec) → Nat → StageRec → List (Nat × StageRec)
  | [], i, r => if r = .reset then [] else [(i, r)]
  | (j, x) :: t, i, r =>
    if i < j then (if r = .reset then (j, x) :: t else (i, r) :: (j, x) :: t)
    else if i = j then (if r = .reset then t else (i, r) :: t)
    else (j, x) :: storePut t i r

/-- The canonical form, from a lowest index upward. -/
def storeWfFrom (lo : Nat) : List (Nat × StageRec) → Bool
  | [] => true
  | (j, r) :: t => decide (lo ≤ j) && decide (j < storeSize) && decide (r ≠ .reset) && storeWfFrom (j + 1) t

/-- The canonical form of the store. -/
def storeWf (m : List (Nat × StageRec)) : Bool := storeWfFrom 0 m

/-- Consecutive writes from an index upward, each with last outcome NONE and pass count 0 (R136). -/
def storeWriteAll : List (Nat × StageRec) → Nat → List StageBytes → List (Nat × StageRec)
  | m, _, [] => m
  | m, i, b :: t => storeWriteAll (storePut m i ⟨b, .none, 0⟩) (i + 1) t

/-- The record at an index. -/
def State.stage (s : State) (i : Nat) : StageRec := storeGet s.str.store i

/-- A write of one place; an index past the store writes nothing. -/
def State.setStage (s : State) (i : Nat) (r : StageRec) : State :=
  if i < storeSize then s.setStr { s.str with store := storePut s.str.store i r } else s

end Sys2Proof.Machine
end

