-- ==== Sys2Proof/Machine/Runner.lean ====
section
/-! DEFINITION. The Stage Runner (08): decoding of stages, conditions, bursts, waiting, start, hold, resume and stop, and
the end of a command, where reports on their way to the runner are taken. -/

namespace Sys2Proof.Machine

/-! ## Stages (R181, Table 8-4, Table 8-6) -/

/-- Conditions (Table 8-6). -/
inductive Cond where
  | always | zoneInBand (z : Zone) | allInBand | directionIs (d : Direction) | plantRunning | defrostActive | powerShort
  | watchTripped (w : Idx8) | doorOpen | slotEmpty | allowanceFresh | ventDegraded | lockedOut
  deriving DecidableEq, Repr

/-- A well-formed stage. `operate` keeps the kind code and the argument: the slot checks the mask (R173). -/
inductive Stage where
  | setSetpoint (mask : Nat) (setpoint : Option Int)
  | setZoneMode (mask : Nat) (mode : ZoneMode)
  | setMinimum (v : Nat)
  | startHold (limit : Nat)
  | endHold
  | setCap (cap : Option Nat)
  | wait (c : Cond) (timeout : Nat) (target : Option Nat)
  | branch (c : Cond) (target : Nat)
  | loadCount (k : Idx4) (v : Nat)
  | countJump (k : Idx4) (target : Nat)
  | operate (kind arg : Nat) (waitEnd : Bool)
  | armWatch (w : Idx8) (arm : Bool)
  | mark (v : Nat)
  | notify (v : Nat)
  | finish
  deriving DecidableEq, Repr

/-- A DIRECTION IS argument (R181). -/
def directionOf : Nat → Option Direction
  | 0 => some .idle
  | 1 => some .heat
  | 2 => some .cool
  | _ => none

/-- A zone mode code (Table 11-4). -/
def zoneModeOf : Nat → Option ZoneMode
  | 0 => some .off
  | 1 => some .vent
  | 2 => some .regulate
  | _ => none

/-- A condition by its code 1..13 and argument (R181, Table 8-6); none where malformed. -/
def condOf (code arg : Nat) : Option Cond :=
  match code with
  | 1 => some .always
  | 2 => (Zone.at arg).map .zoneInBand
  | 3 => some .allInBand
  | 4 => (directionOf arg).map .directionIs
  | 5 => some .plantRunning
  | 6 => some .defrostActive
  | 7 => some .powerShort
  | 8 => (Idx8.at arg).map .watchTripped
  | 9 => some .doorOpen
  | 10 => some .slotEmpty
  | 11 => some .allowanceFresh
  | 12 => some .ventDegraded
  | 13 => some .lockedOut
  | _ => none

/-- The code of a setpoint field: 0x7FFF means UNCHANGED (R179; in a SET SETPOINT stage, log 22). -/
def setpointOf (n : Nat) : Option Int := if n = 0x7FFF then none else some (signed16 n)

/-- A WAIT's timeout target: 0xFF is CONTINUE (R181). The outer `none` is malformed. -/
def timeoutTargetOf (n : Nat) : Option (Option Nat) :=
  if n = 0xFF then some none else if n < storeSize then some (some n) else none

/-- A jump target (Table 8-4). -/
def targetOf (n : Nat) : Option Nat := if n < storeSize then some n else none

/-- The stage eight bytes hold (Table 11-7); none where it is malformed (Table 8-4) or EMPTY. -/
def decodeStage (b : StageBytes) : Option Stage :=
  let p := b.toList
  match byteAt p 0 with
  | 1 => if zoneMaskOk (byteAt p 1) then some (.setSetpoint (byteAt p 1) (setpointOf (wordAt p 2))) else none
  | 2 => if zoneMaskOk (byteAt p 1) then (zoneModeOf (byteAt p 2)).map (.setZoneMode (byteAt p 1)) else none
  | 3 =>
    match byteAt p 1 with
    | 0 => some (.setMinimum (wordAt p 2))
    | 2 => some (.startHold (wordAt p 2))
    | 3 => some .endHold
    | _ => none
  | 4 =>
    match byteAt p 1 with
    | 0 => some (.setCap (some (wordAt p 2)))
    | 1 => some (.setCap none)
    | _ => none
  | 5 => (condOf (byteAt p 1) (byteAt p 2)).bind fun c =>
      (timeoutTargetOf (byteAt p 5)).map fun t => .wait c (wordAt p 3) t
  | 6 => (condOf (byteAt p 1) (byteAt p 2)).bind fun c => (targetOf (byteAt p 3)).map fun t => .branch c t
  | 7 => (Idx4.at (byteAt p 1)).map fun k => .loadCount k (byteAt p 2)
  | 8 => (Idx4.at (byteAt p 1)).bind fun k => (targetOf (byteAt p 2)).map fun t => .countJump k t
  | 9 =>
    if 1 ≤ byteAt p 1 ∧ byteAt p 1 ≤ 4 then some (.operate (byteAt p 1) (wordAt p 3) (flagAt p 2)) else none
  | 10 => (Idx8.at (byteAt p 1)).bind fun w =>
      match byteAt p 2 with
      | 0 => some (.armWatch w true)
      | 1 => some (.armWatch w false)
      | _ => none
  | 11 => some (.mark (wordAt p 1))
  | 12 => some (.notify (wordAt p 1))
  | 13 => some .finish
  | _ => none

/-- The largest kind code of Table 11-7. -/
def stageKindMax : Nat := 13

/-! ## Conditions (R144) -/

/-- At least one zone in REGULATE, and every one of them in band (Table 8-6). -/
def allInBand (s : State) : Bool :=
  (Zone.all.any fun z => decide ((s.zone z).mode = .regulate)) &&
    (Zone.all.all fun z => decide ((s.zone z).mode ≠ .regulate) || (s.zone z).inBand)

/-- One test of a condition, with the consumption of a trip found (R131, R144). -/
def testCond (c : Cond) (s : State) : State × Bool :=
  match c with
  | .always => (s, true)
  | .zoneInBand z => (s, (s.zone z).inBand)
  | .allInBand => (s, allInBand s)
  | .directionIs d => (s, decide (s.sha.direction = d))
  | .plantRunning => (s, decide (s.psq.state = .run))
  | .defrostActive => (s, decide (s.psq.defrostMark ≠ .none))
  | .powerShort => (s, decide (0 < s.sha.last.totalShortfall))
  | .watchTripped w => watchConsume w s
  | .doorOpen => (s, (s.door .d1).isOpen || (s.door .d2).isOpen)
  | .slotEmpty => (s, s.ops.slot.isNone)
  | .allowanceFresh => (s, decide (s.sha.allowState = .fresh))
  | .ventDegraded => (s, decide (s.aqu.vent = .degraded))
  | .lockedOut => (s, decide (s.psq.state = .lockout))

/-! ## Stamps and stops (R139, R141) -/

/-- Stages one burst may complete (R140). -/
def burstLimit : Nat := 64
/-- Poll interval, ms (R146). -/
def pollTime : Nat := 500
/-- Longest timeout of a WAIT, s (R146). -/
def waitMax : Nat := 3600

/-- A record is stamped with an outcome, and its STAGE record handed to the Trace Queue (R139). -/
def stampStage (i : Nat) (o : StageOutcome) (s : State) : State :=
  offer (.stage i o) (s.setStage i { s.stage i with outcome := o, passes := satInc 255 (s.stage i).passes })

/-- The stage at the current index completes; the current index becomes the next (R139). -/
def completeStage (i : Nat) (o : StageOutcome) (next : Nat) (s : State) : State :=
  let s1 := stampStage i o s
  s1.setRunner { s1.runner with burstCount := satInc burstLimit s1.runner.burstCount, current := some next }

/-- The list stops (R141). -/
def stopList (c : StopCause) (i : StopIndex) (s : State) : State :=
  let r := s.runner
  raiseRunnerEnd ⟨r.list, c, i⟩ (s.setRunner { r with
    state := .stopped, stopCause := c, stopIndex := i, current := none, waitingOn := .none, secondsLeft := none
    placed := .none, resume := none, pollTimer := none })

/-- The runner enters WAITING (R146, R148), its poll timer at 500 ms. -/
def enterWaiting (w : WaitingOn) (seconds : Option Nat) (op : Placed) (s : State) : State :=
  s.setRunner { s.runner with
    state := .waiting, waitingOn := w, secondsLeft := seconds, placed := op, pollPhase := 0
    pollTimer := Timer.start pollTime }

/-! ## Performing one stage (R142 to R149, R154) -/

/-- What performing a stage came to: completed with an outcome and a next index, or the state it leaves WAITING or
stopped in. -/
inductive Performed where
  | completed (o : StageOutcome) (next : Nat) (s : State)
  | rests (s : State)

/-- How an operation's end completes its OPERATE (R150). -/
def endOutcome : EndState → StageOutcome
  | .done => .done
  | .failed | .aborted => .failed

/-- An OPERATE offers its operation to the slot (R148). A stage that waits for the end is WAITING before the operation
starts, since the operation may end as it starts. -/
def performOperate (i kind arg : Nat) (waitEnd : Bool) (s : State) : Performed :=
  match opWorkOf kind arg, offerAnswer kind arg s with
  | some w, .accepted _ =>
    if waitEnd then .rests (slotStart w .runner (enterWaiting .operationEnd none .placed s))
    else .completed .done (i + 1)
      (slotStart w .runner (s.setRunner { s.runner with placed := .none, waitingOn := .none }))
  | some _, .busy => .rests (enterWaiting .slot none .none s)
  | _, _ => .completed .failed (i + 1) s

/-- A WAIT at its execution (R146). -/
def performWait (i : Nat) (c : Cond) (timeout : Nat) (s : State) : Performed :=
  let x := testCond c s
  if x.2 then .completed .done (i + 1) x.1
  else .rests (enterWaiting .condition (if timeout = 0 then none else some (min timeout waitMax)) .none x.1)

/-- A stage is performed (R142 to R148). -/
def performStage (i : Nat) (st : Stage) (s : State) : Performed :=
  match st with
  | .setSetpoint mask v => .completed .done (i + 1) (zoneWrite mask none v s)
  | .setZoneMode mask m => .completed .done (i + 1) (zoneWrite mask (some m) none s)
  | .setMinimum v => .completed .done (i + 1) (setMinimum v s)
  | .startHold l => .completed .done (i + 1) (startHold l s)
  | .endHold => .completed .done (i + 1) (endHold s)
  | .setCap c => .completed .done (i + 1) (capWrite c s)
  | .wait c timeout _ => performWait i c timeout s
  | .branch c t =>
    let x := testCond c s
    if x.2 then .completed .taken t x.1 else .completed .notTaken (i + 1) x.1
  | .loadCount k v => .completed .done (i + 1) (s.setStr { s.str with counters := s.str.counters.set k v })
  | .countJump k t =>
    let n := s.str.counters.get k
    if 0 < n then .completed .taken t (s.setStr { s.str with counters := s.str.counters.set k (n - 1) })
    else .completed .notTaken (i + 1) s
  | .operate kind arg w => performOperate i kind arg w s
  | .armWatch w a => .completed .done (i + 1) (s.setWatch w (if a then (s.watch w).arm else (s.watch w).disarm))
  | .mark v => .completed .done (i + 1) (offer (.mark v .runner) s)
  | .notify v => .completed .done (i + 1) (raiseStageNotice ⟨v, i⟩ s)
  | .finish => .rests (stopList .done (.at i) (completeStage i .done (i + 1) s))

/-- The stage at the resume index, with what the resume point saved (R154). -/
def performResumed (i : Nat) (st : Stage) (saved : ResumePoint) (s : State) : Performed :=
  match st, saved.secondsLeft, saved.placed with
  | .wait c _ _, some n, _ =>
    let x := testCond c s
    if x.2 then .completed .done (i + 1) x.1 else .rests (enterWaiting .condition (some n) .none x.1)
  | .operate .., _, .placed => .rests (enterWaiting .operationEnd none .placed s)
  | .operate .., _, .ended e => .completed (endOutcome e) (i + 1) s
  | _, _, _ => performStage i st s

/-- Performs a stage afresh or as resumed. -/
def performWith (saved : Option ResumePoint) (i : Nat) (st : Stage) (s : State) : Performed :=
  match saved with
  | some r => performResumed i st r s
  | none => performStage i st s

/-! ## Bursts (R138 to R140) -/

/-- The stop index for an index about to be executed. Past 127 it is END OF STORE: Table 8-5 has no such index, and R140
gives one for RUNAWAY without a word on this case (DESIGN CHOICE, log 44). -/
def stopIndexOf (i : Nat) : StopIndex := if i < storeSize then .at i else .endOfStore

/-- A burst from the current index: the checks of R140, then one stage after another until one rests. 65 rounds suffice,
since the 65th finds the burst count at 64. -/
def burstFrom : Nat → Option ResumePoint → State → State
  | 0, _, s => s
  | n + 1, saved, s =>
    match s.runner.current with
    | none => s
    | some i =>
      if burstLimit ≤ s.runner.burstCount then stopList .runaway (stopIndexOf i) s
      else if storeSize ≤ i then stopList .stageUnavailable .endOfStore s
      else if byteAt (s.stage i).bytes.toList 0 = 0 then stopList .stageUnavailable (.at i) s
      else match decodeStage (s.stage i).bytes with
        | none => stopList .badStage (.at i) (stampStage i .failed s)
        | some st =>
          match performWith saved i st s with
          | .rests s1 => s1
          | .completed o next s1 => burstFrom n none (completeStage i o next s1)

/-- A burst begins at an index (R138). -/
def beginBurst (saved : Option ResumePoint) (i : Nat) (s : State) : State :=
  burstFrom (burstLimit + 1) saved
    (s.setRunner { s.runner with state := .running, current := some i, burstCount := 0, waitingOn := .none
                                 pollTimer := none })

/-- The stage waited on completes and a burst begins at its completion (R138, R147, R149, R150). -/
def completeWaited (i : Nat) (o : StageOutcome) (next : Nat) (s : State) : State :=
  let s1 := s.setRunner { s.runner with
    state := .running, burstCount := 0, waitingOn := .none, secondsLeft := none, placed := .none, pollTimer := none }
  burstFrom (burstLimit + 1) none (completeStage i o next s1)

/-! ## Polls (R147, R149) -/

/-- The poll timer restarts (R147, R149, R150). -/
def restartPoll (s : State) : State := s.setRunner { s.runner with pollTimer := Timer.start pollTime }

/-- A poll that finds the condition false (R147). -/
def pollFalse (i : Nat) (target : Option Nat) (s : State) : State :=
  match s.runner.secondsLeft with
  | none => restartPoll s
  | some n =>
    if s.runner.pollPhase + 1 < 2 then restartPoll (s.setRunner { s.runner with pollPhase := s.runner.pollPhase + 1 })
    else
      let s1 := s.setRunner { s.runner with pollPhase := 0, secondsLeft := some (n - 1) }
      if n - 1 = 0 then completeWaited i .timedOut (target.getD (i + 1)) s1 else restartPoll s1

/-- A poll while waiting on CONDITION (R147). -/
def pollCondition (i : Nat) (s : State) : State :=
  match decodeStage (s.stage i).bytes with
  | some (.wait c _ target) =>
    let x := testCond c s
    if x.2 then completeWaited i .done (i + 1) x.1 else pollFalse i target x.1
  | _ => restartPoll s

/-- A poll while waiting on SLOT (R149). -/
def pollSlot (i : Nat) (s : State) : State :=
  match decodeStage (s.stage i).bytes with
  | some (.operate kind arg waitEnd) =>
    match performOperate i kind arg waitEnd s with
    | .rests s1 => s1
    | .completed o next s1 => completeWaited i o next s1
  | _ => restartPoll s

/-- Expiry of the poll timer (R147, R149, R150). -/
def pollExpiry (s : State) : State :=
  if s.runner.state = .waiting ∧ s.runner.pollTimer.isSome then
    match s.runner.current, s.runner.waitingOn with
    | some i, .condition => pollCondition i s
    | some i, .slot => pollSlot i s
    | _, _ => restartPoll s
  else s

/-! ## The end of a command: reports to the runner (R150, R152, R153) -/

/-- The end of the operation the runner placed is taken (R150, R152). -/
def takeOpEnd (e : EndState) (s : State) : State :=
  match s.runner.state, s.runner.current with
  | .suspended, _ =>
    s.setRunner { s.runner with resume := s.runner.resume.map fun p =>
      if p.placed = .placed then { p with placed := .ended e } else p }
  | .waiting, some i =>
    if s.runner.waitingOn = .operationEnd then completeWaited i (endOutcome e) (i + 1) s else s
  | _, _ => s

/-- A list in WAITING is suspended (R152). -/
def suspend (s : State) : State :=
  let r := s.runner
  match r.current with
  | some i =>
    s.setRunner { r with
      state := .suspended, resume := some ⟨i, r.secondsLeft, r.placed⟩, pollTimer := none, pollPhase := 0 }
  | none => s

/-- The plant's trip event (R153). -/
def takeTrip (s : State) : State :=
  if s.runner.state = .waiting ∧ s.runner.suspendOnTrip = true then suspend s else s

/-- The ends of operations on their way to the runner are taken, each with the burst it begins, while the fuel lasts. -/
def takeOpEnds : Nat → State → Option State
  | 0, s => if s.mail.opEnd = none then some s else none
  | n + 1, s =>
    match s.mail.opEnd with
    | none => some s
    | some e => takeOpEnds n (takeOpEnd e (s.setMail { s.mail with opEnd := none }))

/-- The end of a command (log 7): operation ends, then the trip event, are taken by the runner. An endless chain of
bursts is the model's one fault (log 8). -/
def settle (s : State) : Host.Outcome State Fault Refusal :=
  match takeOpEnds Config.burstChainLimit s with
  | none => .fault .endlessBurst
  | some s1 => .next ((if s1.mail.trip then takeTrip s1 else s1).setMail .empty)

/-! ## Requests (R151, R152, R154, R155) and restart (R156) -/

/-- RUNNER START of a list whose entry is set (R151). -/
def runnerStart (list : Idx8) (suspendOnTrip : Bool) (i : Nat) (s : State) : State :=
  beginBurst none i (s.setRunner { s.runner with
    list := some list, suspendOnTrip := suspendOnTrip, stopCause := .none, stopIndex := .none, resume := none
    placed := .none })

/-- RUNNER RESUME (R154). -/
def runnerResume (p : ResumePoint) (s : State) : State :=
  beginBurst (some p) p.index (s.setRunner { s.runner with resume := none, placed := .none })

/-- The index at which a RUNNER STOP ends a list: the current or the resume index (R155). -/
def Runner.stopAt (r : Runner) : StopIndex :=
  match r.state, r.resume, r.current with
  | .suspended, some p, _ => .at p.index
  | _, _, some i => .at i
  | _, _, none => .none

/-- RUNNER STOP (R155). -/
def runnerStop (s : State) : State :=
  match s.runner.state with
  | .waiting | .suspended | .running => stopList .stoppedByBody s.runner.stopAt s
  | .idle | .stopped =>
    s.setRunner { s.runner with state := .stopped, stopCause := .stoppedByBody, stopIndex := .none }

/-- A STAGES WRITE in SUSPENDED that covers the resume index clears what the resume point saved (R152). -/
def resumeAfterWrite (first count : Nat) (s : State) : State :=
  s.setRunner { s.runner with resume := s.runner.resume.map fun p =>
    if first ≤ p.index ∧ p.index < first + count then { p with secondsLeft := none, placed := .none } else p }

/-- The runner's part of a warm restart (R156). -/
def runnerRestart (s : State) : State := s.setRunner .reset

end Sys2Proof.Machine
end

