-- ==== Sys2Proof/Machine/Restart.lean ====
section
/-! DEFINITION. The two resets (R172) and the passing of time. -/

namespace Sys2Proof.Machine

/-- Power-on (R172): every block at its power-on values, the home switches as read. The model's own queue and outputs are
kept (log 24). -/
def powerOn (sw : Steppers Contact) (s : State) : State :=
  { State.afterPowerOn sw with pending := s.pending, bodyOut := s.bodyOut, driveOut := s.driveOut }

/-- The Trace Queue's part of a warm restart (R167). -/
def traceRestart (s : State) : State := s.setTrq .reset

/-- The Body Link Port's part of a warm restart (R172): the pending set holds STARTED only and the hold flag is clear. -/
def linkRestart (s : State) : State :=
  raiseStarted .warmRestart (s.setBlp { s.blp with notices := .empty, holdFlag := false })

/-- A warm restart (R172), block after block in the order of its list (log 21). No report reaches the Stage Runner
(R174). -/
def warmRestart (s : State) : State :=
  let s1 := airRestart (shareRestart (zonesRestart s))
  let s2 := decksRestart (plantRestart s1)
  let s3 := traceRestart (runnerRestart (watchesRestart s2))
  linkRestart ((slotRestart s3).setMail .empty)

/-! ## The passing of time (log 3) -/

/-- Milliseconds of one unit of the time base (00, Section 2.2). -/
def tickMs : Nat := 100

/-- A running timer loses one unit, down to 0; at 0 its expiry is due. -/
def lapse (t : Timer) : Timer := t.map (· - tickMs)

def Dwell.lapse : Dwell → Dwell
  | .running ms => .running (ms - tickMs)
  | d => d

def StepTimer.lapse : StepTimer → StepTimer
  | .stopped => .stopped
  | .step ms => .step (ms - tickMs)
  | .pause ms => .pause (ms - tickMs)

def Zrg.lapse (z : Zrg) : Zrg :=
  { z with
    periodTimer := Machine.lapse z.periodTimer
    doors := .ofFn fun d => { z.doors.get d with timer := Machine.lapse (z.doors.get d).timer } }

def Psq.lapse (p : Psq) : Psq :=
  { p with
    antiShortCycle := Machine.lapse p.antiShortCycle, dwell := p.dwell.lapse, settleTimer := Machine.lapse p.settleTimer
    tripTimer := Machine.lapse p.tripTimer, defrostTimer := Machine.lapse p.defrostTimer }

def Dln.lapse (d : Dln) : Dln :=
  { d with
    ackTimer := Machine.lapse d.ackTimer, runningTimer := Machine.lapse d.runningTimer
    retryTimer := Machine.lapse d.retryTimer, refreshTimer := Machine.lapse d.refreshTimer
    silenceTimer := Machine.lapse d.silenceTimer, stopTimer := Machine.lapse d.stopTimer }

def DeckRec.lapse (r : DeckRec) : DeckRec :=
  { r with
    spinUp := Machine.lapse r.spinUp, cutTimer := Machine.lapse r.cutTimer, afterRun := Machine.lapse r.afterRun }

def Act.lapse (a : Act) : Act :=
  { a with
    steppers := .ofFn fun n => { a.steppers.get n with timer := (a.steppers.get n).timer.lapse }
    decks := .ofFn fun d => (a.decks.get d).lapse }

/-- One unit of time passes: the time base counts modulo 2^32 and every running timer loses 100 ms. -/
def passTime (s : State) : State :=
  { s with
    time := (s.time + 1) % timeModulus
    zrg := s.zrg.lapse
    sha := { s.sha with validityTimer := lapse s.sha.validityTimer }
    aqu := { s.aqu with holdTimer := lapse s.aqu.holdTimer }
    psq := s.psq.lapse
    dln := s.dln.lapse
    act := s.act.lapse
    ssc := .ofFn fun c => { s.ssc.get c with lossTimer := lapse (s.ssc.get c).lossTimer }
    str := { s.str with runner := { s.str.runner with pollTimer := lapse s.str.runner.pollTimer } } }

end Sys2Proof.Machine
end

