-- ==== Sys2Proof/Machine/Link.lean ====
section
/-! DEFINITION. The body link (10, 11): the bytes of a frame, the reading of a line, the receive queue, requests and
replies, and the bytes of notices. -/

namespace Sys2Proof.Machine

/-! ## Frames (Table 11-1) -/

/-- Header and payload of a body-link frame (Table 11-1). -/
def Frame.body (f : Frame) : List Byte := f.kind :: f.tag :: BitVec.ofNat 8 f.payload.length :: f.payload

/-- A body-link frame as sent (Table 11-1). -/
def Frame.wire (f : Frame) : List Byte := wireOf f.body

/-! ## Reading a line (R169, R183) -/

/-- The shape of a line's frames: how many bytes the header has, its last byte the length, and the largest length. -/
structure LineForm where
  header : Nat
  maxLength : Nat
  deriving DecidableEq, Repr

/-- The body link (Table 11-1). -/
def bodyLine : LineForm := ⟨3, 200⟩
/-- The Drive Line (R183). -/
def driveLine : LineForm := ⟨2, 8⟩

/-- What a receiver is doing: no frame, or a frame with the unescaped bytes so far, newest first. -/
inductive Scan where
  | idle | collecting (escape : Bool) (bytes : List Byte)
  deriving DecidableEq, Repr

/-- What a byte brought about: a frame that passed its check (header and payload), or a lost frame. -/
inductive LineEvent where
  | frame (body : List Byte) | lost
  deriving DecidableEq, Repr

/-- The unescaped bytes of a frame so far, oldest first, are judged (R169): a length that is too large ends the frame
there; a whole frame passes or fails its check. -/
def judge (f : LineForm) (bytes : List Byte) : Scan × List LineEvent :=
  let l := bytes.reverse
  let len := byteAt l (f.header - 1)
  if l.length < f.header then (.collecting false bytes, [])
  else if f.maxLength < len then (.idle, [.lost])
  else if l.length < f.header + len + 2 then (.collecting false bytes, [])
  else
    let body := l.take (f.header + len)
    if l = body ++ checkBytes body then (.idle, [.frame body]) else (.idle, [.lost])

/-- One received byte (R169). -/
def scanByte (f : LineForm) (st : Scan) (b : Byte) : Scan × List LineEvent :=
  match st with
  | .idle => if b = startByte then (.collecting false [], []) else (.idle, [])
  | .collecting esc bytes =>
    if b = startByte then (.collecting false [], [.lost])
    else if esc then judge f ((b ^^^ 0x20) :: bytes)
    else if b = escapeByte then (.collecting true bytes, [])
    else judge f (b :: bytes)

/-- The bytes of a line, from a state of the receiver. -/
def scanLine (f : LineForm) : Scan → List Byte → List LineEvent
  | _, [] => []
  | st, b :: t => (scanByte f st b).2 ++ scanLine f (scanByte f st b).1 t

/-- The frame whose header and payload passed the check. -/
def frameOf (body : List Byte) : Frame := ⟨body.getD 0 0, body.getD 1 0, body.drop 3⟩

/-! ## The receive queue (R168, R169) -/

/-- Frames the receive queue holds at most (R168). -/
def receiveCapacity : Nat := 4

/-- A link error is counted (R169). -/
def linkError (s : State) : State := s.setBlp { s.blp with linkErrors := satInc 65535 s.blp.linkErrors }

/-- A frame that passed is queued, or dropped and counted where the queue is full (R169). -/
def queueFrame (fr : Frame) (s : State) : State :=
  if s.blp.queue.length < receiveCapacity then s.setBlp { s.blp with queue := s.blp.queue ++ [fr] } else linkError s

/-- What the receiver does with an event of the line. -/
def lineEvent (s : State) : LineEvent → State
  | .frame body => queueFrame (frameOf body) s
  | .lost => linkError s

/-- Bytes arrive on the body link (R169). A frame unfinished at their end is not kept (log 6). -/
def receiveLine (line : List Byte) (s : State) : State := (scanLine bodyLine .idle line).foldl lineEvent s

/-! ## Requests and replies (R170, R179) -/

/-- Kind of a reply: request kind + 0x80 (Table 11-1); a free value where that does not fit a byte (log 13). -/
def replyKind (k : Byte) : Byte := if k.msb then Config.replyKindTopBit k else k + 0x80

/-- A reply is made and waits (R170): the result code, then the fields where the code accepts (R179). -/
def answer (kind tag : Byte) (c : ResultCode) (fields : List Byte) (s : State) : State :=
  s.setBlp { s.blp with
    reply := some ⟨replyKind kind, tag, u8 c.code ++ (if c.accepted then fields else [])⟩ }

/-- The largest payload (Table 11-1). -/
def maxPayload : Nat := 200

/-- The Body Link Port takes a frame (R170; log 1): no reply waits, and the frame stands at the head of the receive queue,
or the queue is empty and the frame arrives and is taken in one. None where it cannot be taken. -/
def takeFrame (fr : Frame) (s : State) : Option State :=
  if s.blp.reply.isSome ∨ maxPayload < fr.payload.length then none
  else match s.blp.queue with
    | [] => some s
    | h :: t => if h = fr then some (s.setBlp { s.blp with queue := t }) else none

/-- What a request's owning block answers: the state, the result code and the reply's fields. -/
abbrev Answered := State × ResultCode × List Byte

/-- A block's refusal: no state changes (R171). -/
def refuse (c : ResultCode) (s : State) : Answered := (s, c, [])

/-- A request is taken, its length compared with Table 11-2, and answered by its owning block (R170, R179). -/
def requestAnswer (kind : Byte) (lengthOk : Nat → Bool) (h : List Byte → State → Answered) (tag : Byte)
    (payload : List Byte) (s : State) : Option State :=
  (takeFrame ⟨kind, tag, payload⟩ s).map fun s1 =>
    let x := if lengthOk payload.length then h payload s1 else refuse .badLength s1
    answer kind tag x.2.1 x.2.2 x.1

/-- A request whose work reports nothing to the Stage Runner. -/
def request (kind : Byte) (lengthOk : Nat → Bool) (h : List Byte → State → Answered) (tag : Byte) (payload : List Byte)
    (s : State) : Host.Outcome State Fault Refusal :=
  .next ((requestAnswer kind lengthOk h tag payload s).getD s)

/-- One length (Table 11-2). -/
def len (n : Nat) (m : Nat) : Bool := decide (m = n)

/-- The request kinds of Table 11-2. -/
def isRequestKind (k : Byte) : Bool := decide (0x01 ≤ k.toNat) && decide (k.toNat ≤ 0x1C)

/-! ## Sending (R177) -/

/-- A frame goes out on the body link: start byte, then header, payload and check, escaped (R178). -/
def bodySend (f : Frame) (s : State) : State := s.setBodyOut (s.bodyOut ++ f.wire)

/-- A notice frame: kind, tag 0, merge count and content (R177). -/
def noticeFrame (k : Byte) (merged : Nat) (content : List Byte) : Frame := ⟨k, 0, u8 merged ++ content⟩

/-- The plant fault record's fields (R81). -/
def FaultRecord.bytes (r : FaultRecord) : List Byte :=
  u8 (tripCauseCode r.cause) ++ u8 r.state.code ++ u8 (runModeCode r.mode) ++ u8 r.wanted.code ++ u8 r.driveCode
    ++ u32 r.time ++ u8 r.tripCount

def OperationEndNotice.bytes (n : OperationEndNotice) : List Byte :=
  u8 (opKindCode (some n.kind)) ++ u8 n.source.code ++ u8 (OpState.ended n.state).code ++ n.detail.bytes

def RunnerEndNotice.bytes (n : RunnerEndNotice) : List Byte :=
  u8? (n.list.map Idx8.pos) ++ u8 n.cause.code ++ u8 n.index.code

def StageNotice.bytes (n : StageNotice) : List Byte := u16 n.value ++ u8 n.index

def WatchTripNotice.bytes (n : WatchTripNotice) : List Byte :=
  u8 n.watch.pos ++ u8 n.channel.pos ++ i16 n.value ++ u8 n.tripCount
    ++ Idx8.all.flatMap fun i => u8 (n.states.get i).code

def SensorStateNotice.bytes (n : SensorStateNotice) : List Byte :=
  u8 n.channel.pos ++ u8 n.quality.code ++ i16? n.value ++ Channel.all.flatMap fun c => u8 (n.qualities.get c).code

def ActuatorFaultNotice.bytes (n : ActuatorFaultNotice) : List Byte := u8 n.stepper.pos ++ u8 n.cause.code ++ u16 n.count

/-- The TRACE STATE notice's fields (R164). With cause FULL the watch number is sent as absent, 0xFF (DESIGN CHOICE,
log 50). -/
def TraceStateNotice.bytes (n : TraceStateNotice) : List Byte :=
  u8 n.state.code ++ u8 n.cause.code ++ u8? (n.watch.map Idx8.pos) ++ u16 n.records ++ u16 n.dropCount

def HoldEndNotice.bytes (n : HoldEndNotice) : List Byte := u8 n.cause.code ++ u16 n.length

/-- The pending notice first in kind order, with the set it leaves (R177, Table 10-4). -/
def NoticeSet.takeFirst (n : NoticeSet) : Option (Frame × NoticeSet) :=
  match n with
  | { started := some p, .. } => some (noticeFrame 0x40 p.merged (u8 p.content.code), { n with started := none })
  | { operationEnd := some p, .. } => some (noticeFrame 0x41 p.merged p.content.bytes, { n with operationEnd := none })
  | { runnerEnd := some p, .. } => some (noticeFrame 0x42 p.merged p.content.bytes, { n with runnerEnd := none })
  | { stageNotice := some p, .. } => some (noticeFrame 0x43 p.merged p.content.bytes, { n with stageNotice := none })
  | { watchTrip := some p, .. } => some (noticeFrame 0x44 p.merged p.content.bytes, { n with watchTrip := none })
  | { plantTrip := some p, .. } => some (noticeFrame 0x45 p.merged p.content.bytes, { n with plantTrip := none })
  | { lockout := some p, .. } => some (noticeFrame 0x46 p.merged [], { n with lockout := none })
  | { allowanceExpired := some p, .. } =>
    some (noticeFrame 0x47 p.merged (u16 p.content), { n with allowanceExpired := none })
  | { sensorState := some p, .. } => some (noticeFrame 0x48 p.merged p.content.bytes, { n with sensorState := none })
  | { actuatorFault := some p, .. } => some (noticeFrame 0x49 p.merged p.content.bytes, { n with actuatorFault := none })
  | { traceState := some p, .. } => some (noticeFrame 0x4A p.merged p.content.bytes, { n with traceState := none })
  | { recircHoldEnd := some p, .. } => some (noticeFrame 0x4B p.merged p.content.bytes, { n with recircHoldEnd := none })
  | _ => none

/-- Which notices are pending, in kind order (R168). -/
def NoticeSet.flags (n : NoticeSet) : List Bool :=
  [n.started.isSome, n.operationEnd.isSome, n.runnerEnd.isSome, n.stageNotice.isSome, n.watchTrip.isSome,
    n.plantTrip.isSome, n.lockout.isSome, n.allowanceExpired.isSome, n.sensorState.isSome, n.actuatorFault.isSome,
    n.traceState.isSome, n.recircHoldEnd.isSome]

/-- The reply waiting is sent (R177). -/
def sendReply (s : State) : State :=
  match s.blp.reply with
  | some f => bodySend f (s.setBlp { s.blp with reply := none })
  | none => s

/-- The pending notice first in kind order is sent, when no reply waits and the hold flag is clear (R177). -/
def sendNotice (s : State) : State :=
  if s.blp.reply.isSome ∨ s.blp.holdFlag = true then s
  else match s.notices.takeFirst with
    | some (f, n) => bodySend f (s.setNotices n)
    | none => s

end Sys2Proof.Machine
end

