-- ==== Sys2Proof/Machine/Status.lean ====
section
/-! DEFINITION. The fields of replies (R180, Table 11-5): the STATUS sections, each block's record as the body computer
reads it, and the configuration tables as CONFIG READ returns them. -/

namespace Sys2Proof.Machine

/-- A zone record in the order of Table 1-2 (ZONE READ, Table 11-5). -/
def ZoneRec.bytes (r : ZoneRec) : List Byte :=
  u8 r.mode.code ++ i16 r.setpoint ++ i16? r.measured ++ u8 r.sensorUse.code ++ i16 r.integrator ++ i16 r.demand
    ++ u8 r.weight ++ u8 r.occupancy ++ flag r.doorFreeze ++ flag r.inBand ++ u16 r.share ++ i16 r.shortfall
    ++ u8 r.granted ++ u8 r.kmax ++ u16 r.flapMin ++ u16 r.flapMax ++ flag r.flapUsable

/-- The time left on the dwell timer. -/
def Dwell.timer : Dwell → Timer
  | .running ms => some ms
  | .stopped | .expired => none

/-- Which block holds a pending start: 0 none, 1 anti-short-cycle, 2 EEV in FAULT, 3 a pressure LOST, the first that
holds (R65, R85; encoding log 12). -/
def Psq.blockCode (p : Psq) : Nat :=
  if !p.startPending then 0
  else if p.antiShortCycle.isSome then 1
  else if p.eevFaulted then 2
  else if decide (p.pSuc.quality = .lost) || decide (p.pDis.quality = .lost) then 3
  else 0

/-- STATUS, LINK (R168), with the operation status record for the Operation Slot's part of the section (R174; DESIGN
CHOICE, log 45). -/
def statusLink (s : State) : List Byte :=
  u16 s.blp.linkErrors ++ u8 s.blp.queue.length ++ flag s.blp.holdFlag ++ s.notices.flags.flatMap flag
    ++ u8 (opKindCode s.ops.status.kind) ++ u8 (sourceCode s.ops.status.source) ++ u8 s.ops.status.state.code
    ++ s.ops.status.detail.bytes

/-- STATUS, ZONES (R170; log 29): the zone records, the door states, A. -/
def statusZones (s : State) : List Byte :=
  (Zone.all.flatMap fun z => (s.zone z).bytes) ++ (Door.all.flatMap fun d => flag (s.door d).isOpen)
    ++ u16 s.sha.effective

/-- STATUS, PLANT (R85). -/
def statusPlant (s : State) : List Byte :=
  u8 s.psq.state.code ++ u8 (runModeCode s.psq.mode) ++ u8 s.psq.wanted.code ++ u8 s.psq.valve.code
    ++ u8 (fanCode s.psq.fanOn) ++ flag s.psq.startPending ++ u8 s.psq.blockCode ++ timeLeft s.psq.antiShortCycle
    ++ timeLeft s.psq.dwell.timer ++ timeLeft s.psq.settleTimer ++ timeLeft s.psq.tripTimer
    ++ timeLeft s.psq.defrostTimer ++ u16 s.psq.frost ++ u16 s.psq.heatRunCount ++ u8 s.psq.defrostMark.code
    ++ u8 (defrostEndCode s.psq.lastDefrostEnd) ++ u16 s.psq.command ++ u16 s.psq.eevTarget ++ s.psq.faultRecord.bytes
    ++ u8 s.psq.tripHistory.length

/-- The last drive status with the age of its time base value, or absent (R99). -/
def driveStatusBytes (now : Nat) : Option DriveStatus → List Byte
  | some d => u16 d.speed ++ u16 d.power ++ i16 d.temperature ++ u32 (ageOf now d.time)
  | none => u16? none ++ u16? none ++ i16? none ++ u32? none

/-- The last fault code with its time base value, or absent (R99). -/
def driveFaultBytes : Option DriveFault → List Byte
  | some f => u8 f.code ++ u32 f.time
  | none => u8? none ++ u32? none

/-- STATUS, DRIVE (R99). -/
def statusDrive (s : State) : List Byte :=
  u8 s.dln.link.code ++ u8 s.dln.attempts ++ u8 s.dln.failure.code ++ u16 s.dln.powerSent ++ u8 s.dln.lastStop.code
    ++ flag s.dln.compressorRunning ++ driveStatusBytes s.time s.dln.lastStatus ++ driveFaultBytes s.dln.lastFault
    ++ u16 s.dln.errorCount

/-- STATUS, AIR (R59). -/
def statusAir (s : State) : List Byte :=
  u8 s.aqu.vent.code ++ u16 s.aqu.phi ++ u16 s.aqu.damper ++ u16 s.aqu.boost ++ flag s.aqu.holdActive
    ++ timeLeft s.aqu.holdTimer ++ u8 s.aqu.humidity.code ++ flag s.aqu.purgeActive ++ u8 s.aqu.periodsRun

/-- A stepper as STATUS shows it (R117). Position and target take two bytes for all eight steppers (DESIGN CHOICE,
log 41). -/
def StepperRec.statusBytes (r : StepperRec) : List Byte :=
  u8 r.state.code ++ u16? r.position ++ u16 r.target ++ flag r.faulted ++ u8 r.slipCount ++ u16 r.stepsMoved
    ++ flag r.verifyDue

/-- A deck as STATUS shows it (R117). -/
def DeckRec.statusBytes (r : DeckRec) : List Byte :=
  u8 r.stage ++ flag r.running ++ timeLeft r.spinUp ++ timeLeft r.cutTimer ++ timeLeft r.afterRun
    ++ flag (decide (r.supply = .lost)) ++ u8 r.idleCount

/-- STATUS, ACTUATORS (R117). -/
def statusActuators (s : State) : List Byte :=
  (Stepper.all.flatMap fun n => (s.stepper n).statusBytes) ++ (Zone.all.flatMap fun z => u8 (s.act.stepsOn.get z))
    ++ Deck.all.flatMap fun d => (s.deck d).statusBytes

/-- A channel as STATUS shows it (R126). -/
def ChannelRec.statusBytes (r : ChannelRec) : List Byte :=
  u8 r.quality.code ++ i16? r.value ++ flag r.clamped ++ u16? r.lastRaw ++ timeLeft r.lossTimer ++ u16 r.faultCount

/-- STATUS, SENSORS (R126). -/
def statusSensors (s : State) : List Byte := Channel.all.flatMap fun c => (s.channel c).statusBytes

/-- STATUS, WATCHES (R134). -/
def statusWatches (s : State) : List Byte :=
  Idx8.all.flatMap fun i => u8 (s.watch i).state.code ++ u8 (s.watch i).count ++ u8 (s.watch i).tripCount

/-- The resume point's index and seconds left while SUSPENDED (R157); both as absent in any other state (DESIGN CHOICE,
log 47). NO TIMEOUT is sent as 0xFFFF (DESIGN CHOICE, log 46). -/
def Runner.resumeBytes (r : Runner) : List Byte :=
  match r.state, r.resume with
  | .suspended, some p => u8 p.index ++ u16? p.secondsLeft
  | _, _ => u8? none ++ u16? none

/-- STATUS, RUNNER (R157). Seconds left of NO TIMEOUT is sent as 0xFFFF (DESIGN CHOICE, log 46). -/
def statusRunner (s : State) : List Byte :=
  u8 s.runner.state.code ++ u8? (s.runner.list.map Idx8.pos) ++ flag s.runner.suspendOnTrip ++ u8? s.runner.current
    ++ u8 s.runner.waitingOn.code ++ u16? s.runner.secondsLeft ++ s.runner.resumeBytes ++ u8 s.runner.stopCause.code
    ++ u8 s.runner.stopIndex.code ++ Idx4.all.flatMap fun k => u8 (s.str.counters.get k)

/-- STATUS, TRACE (R167). -/
def statusTrace (s : State) : List Byte :=
  u8 s.trq.capture.code ++ u8 s.trq.level ++ u8 s.trq.policy.code ++ u8 s.trq.snapshotPeriod ++ u8 s.trq.periodCount
    ++ u16 s.trq.queue.length ++ u16 s.trq.dropCount ++ u32? s.trq.firstDrop

/-- The section a STATUS request names (R180). -/
def statusSection (code : Nat) (s : State) : Option (List Byte) :=
  match code with
  | 0 => some (statusLink s)
  | 1 => some (statusZones s)
  | 2 => some (statusPlant s)
  | 3 => some (statusDrive s)
  | 4 => some (statusAir s)
  | 5 => some (statusActuators s)
  | 6 => some (statusSensors s)
  | 7 => some (statusWatches s)
  | 8 => some (statusRunner s)
  | 9 => some (statusTrace s)
  | _ => none

/-- SHARE READ's fields (Table 11-5). Its one field A is that of the last share result (DESIGN CHOICE, log 36). -/
def shareBytes (s : State) : List Byte :=
  let r := s.sha.last
  u32 r.time ++ u16 r.need ++ u16 r.a ++ u16 r.b ++ u16 r.pa ++ u16 r.pe ++ u32 r.qd ++ u8 r.direction.code
    ++ u8 r.wanted.code ++ u8 r.starvedCount ++ flag r.hold ++ flag r.shed ++ u8 r.stages.upper ++ u8 r.stages.lower
    ++ (Zone.all.flatMap fun z => u16 (r.zones.get z).share ++ i16 (r.zones.get z).shortfall ++ u8 (r.zones.get z).grant)
    ++ i16 r.totalShortfall ++ u16 r.heaterPower
    ++ ((List.range 6).flatMap fun i => u8? (r.order[i]?.map Zone.pos))
    ++ u16 s.sha.hostValue ++ u16 s.sha.inUse ++ u8 s.sha.allowState.code ++ u16 s.sha.age ++ u16? s.sha.runnerCap

/-- WATCH READ's fields (Table 11-5). -/
def WatchRec.bytes (w : WatchRec) : List Byte :=
  u8 w.channel.pos ++ i16 w.threshold ++ u8 w.direction.code ++ u16 w.hysteresis ++ u8 w.persistence ++ u8 w.actionCode
    ++ flag w.autoRearm ++ u8 w.state.code ++ u8 w.count ++ u8 w.tripCount ++ i16? w.tripValue

/-- TRACE CONTROL's fields (Table 11-5). -/
def traceControlBytes (s : State) : List Byte :=
  u8 s.trq.capture.code ++ u8 s.trq.level ++ u8 s.trq.policy.code ++ u8 s.trq.snapshotPeriod
    ++ u16 s.trq.queue.length ++ u16 s.trq.dropCount ++ u32? s.trq.firstDrop

/-- A stage record as STAGES READ returns it (Table 11-5). -/
def StageRec.replyBytes (r : StageRec) : List Byte := r.bytes.toList ++ u8 r.outcome.code ++ u8 r.passes

/-! ## Configuration tables (Table 11-6) -/

/-- The tables of Table 11-6. -/
inductive ConfigTable where
  | gains | weights | kmax | flapLimits | performance | blowers | plant | stepTimes | conversion
  deriving DecidableEq, Repr

/-- Table 11-6. -/
def ConfigTable.ofCode : Nat → Option ConfigTable
  | 1 => some .gains
  | 2 => some .weights
  | 3 => some .kmax
  | 4 => some .flapLimits
  | 5 => some .performance
  | 6 => some .blowers
  | 7 => some .plant
  | 8 => some .stepTimes
  | 9 => some .conversion
  | _ => none

/-- Table 11-6. -/
def ConfigTable.size : ConfigTable → Nat
  | .gains => 10
  | .weights => 6
  | .kmax => 6
  | .flapLimits => 24
  | .performance => 36
  | .blowers => 16
  | .plant => 10
  | .stepTimes => 8
  | .conversion => 64

/-- A table as it stands, laid out as in CONFIG WRITE (R170, Table 11-6). -/
def configBytes (t : ConfigTable) (s : State) : List Byte :=
  match t with
  | .gains =>
    u16 s.zrg.gains.kp ++ u16 s.zrg.gains.ki ++ u16 s.zrg.gains.imax ++ u16 s.zrg.gains.deadband ++ u16 s.zrg.gains.band
  | .weights => Zone.all.flatMap fun z => u8 (s.zone z).weight
  | .kmax => Zone.all.flatMap fun z => u8 (s.zone z).kmax
  | .flapLimits => Zone.all.flatMap fun z => u16 (s.zone z).flapMin ++ u16 (s.zone z).flapMax
  | .performance =>
    PerfIx.all.flatMap fun i =>
      i16 (s.sha.perf.get i).temp ++ u16 (s.sha.perf.get i).heating ++ u16 (s.sha.perf.get i).cooling
  | .blowers => BlowerIx.all.flatMap fun i => u16 (s.sha.blowers.get i).power ++ u16 (s.sha.blowers.get i).airflow
  | .plant =>
    u16 s.psq.settings.dwell ++ u16 s.psq.settings.dischargeLimit ++ u16 s.psq.settings.suctionLimit
      ++ u16 s.psq.settings.verifyDifference ++ u16 s.psq.settings.defrostClear
  | .stepTimes => Stepper.all.flatMap fun n => u8 (s.stepper n).stepTime
  | .conversion => Channel.all.flatMap fun c => i16 (s.channel c).offset ++ u16 (s.channel c).gain

end Sys2Proof.Machine
end

