-- ==== Sys2Proof/Machine/LinkCommands.lean ====
section
/-! DEFINITION. Commands of the Body Link Port and the resets: power-on, receiving, unknown kinds, sending, STATUS, notice
hold and release, RESTART (R168 to R172, R177); and what the rows of one request share. -/

namespace Sys2Proof.Machine

/-- A request whose work may report to the Stage Runner: the reports are taken before the command ends (log 7). -/
def requestSettled (kind : Byte) (lengthOk : Nat → Bool) (h : List Byte → State → Answered) (tag : Byte)
    (payload : List Byte) (s : State) : Host.Outcome State Fault Refusal :=
  match requestAnswer kind lengthOk h tag payload s with
  | some s1 => settle s1
  | none => .next s

/-- Whether a frame of a request with several rows is the command of the row `own` (log 26): its selector names that row,
or no row, so that the frame is refused. -/
def selects (known : Nat → Bool) (own : Nat) (selector : Option Byte) : Bool :=
  match selector with
  | some b => decide (b.toNat = own) || !known b.toNat
  | none => true

/-! ## Resets -/

/-- POWER_ON (R172). -/
def execPowerOn (switches : Steppers Contact) (s : State) : Host.Outcome State Fault Refusal := .next (powerOn switches s)

/-- RESTART (R172). -/
def execRestart (tag : Byte) (payload : List Byte) (s : State) : Host.Outcome State Fault Refusal :=
  request 0x1C (len 0) (fun _ s => (warmRestart s, .done, [])) tag payload s

/-! ## Receiving and sending -/

/-- FRAME_RECEIVED (R169, R178): the bytes of a frame arrive. -/
def execFrameReceived (line : List Byte) (s : State) : Host.Outcome State Fault Refusal := .next (receiveLine line s)

/-- PARTIAL_FRAME_DISCARDED (R169): a partial frame is discarded and counted. -/
def execPartialFrameDiscarded (s : State) : Host.Outcome State Fault Refusal := .next (linkError s)

/-- UNKNOWN_KIND_REQUEST (R170, step 1). -/
def execUnknownKindRequest (kind tag : Byte) (payload : List Byte) (s : State) : Host.Outcome State Fault Refusal :=
  if isRequestKind kind then .next s
  else request kind (fun _ => true) (fun _ s => refuse .unknownKind s) tag payload s

/-- REPLY_SEND (R177). -/
def execReplySend (s : State) : Host.Outcome State Fault Refusal := .next (sendReply s)

/-- NOTICE_SEND (R177). -/
def execNoticeSend (s : State) : Host.Outcome State Fault Refusal := .next (sendNotice s)

/-! ## Requests of the Body Link Port -/

/-- What a STATUS request is answered (R170, R180). -/
def statusAnswer (p : List Byte) (s : State) : Answered :=
  match statusSection (byteAt p 0) s with
  | some b => (s, .done, b)
  | none => refuse .badIndex s

/-- STATUS (R170). -/
def execStatus (tag : Byte) (payload : List Byte) (s : State) : Host.Outcome State Fault Refusal :=
  request 0x01 (len 1) statusAnswer tag payload s

/-- NOTICE HOLD (R177). -/
def execNoticeHold (tag : Byte) (payload : List Byte) (s : State) : Host.Outcome State Fault Refusal :=
  request 0x19 (len 0) (fun _ s => (s.setBlp { s.blp with holdFlag := true }, .done, [])) tag payload s

/-- NOTICE RELEASE (R177). -/
def execNoticeRelease (tag : Byte) (payload : List Byte) (s : State) : Host.Outcome State Fault Refusal :=
  request 0x1A (len 0) (fun _ s => (s.setBlp { s.blp with holdFlag := false }, .done, [])) tag payload s

/-- What a CONFIG READ is answered (R170, R122). -/
def configReadAnswer (p : List Byte) (s : State) : Answered :=
  match ConfigTable.ofCode (byteAt p 0) with
  | some t => (s, .done, u8 (byteAt p 0) ++ configBytes t s)
  | none => refuse .badIndex s

/-- CONFIG READ (R170). -/
def execConfigRead (tag : Byte) (payload : List Byte) (s : State) : Host.Outcome State Fault Refusal :=
  request 0x08 (len 1) configReadAnswer tag payload s

/-! ## CONFIG WRITE (R179) -/

/-- The table codes of Table 11-6. -/
def isTableCode (n : Nat) : Bool := (ConfigTable.ofCode n).isSome

/-- What a CONFIG WRITE of one table is answered (R179): length 0, then the table named, then the table's size. -/
def configAnswer (t : ConfigTable) (w : List Byte → State → Answered) (p : List Byte) (s : State) : Answered :=
  if ConfigTable.ofCode (byteAt p 0) = some t then
    (if p.length = 1 + t.size then w (p.drop 1) s else refuse .badLength s)
  else refuse .badIndex s

/-- A CONFIG WRITE of one table's row (R170, R179). -/
def configRequest (t : ConfigTable) (code : Nat) (w : List Byte → State → Answered) (tag : Byte) (payload : List Byte)
    (s : State) : Host.Outcome State Fault Refusal :=
  if selects isTableCode code payload.head? then
    request 0x07 (fun n => decide (0 < n)) (configAnswer t w) tag payload s
  else .next s

end Sys2Proof.Machine
end

