-- ==== Sys2Proof/Machine/ActuatorCommands.lean ====
section
/-! DEFINITION. Commands of the Actuator Driver (06): step times, the steppers' timers and switches, and the timers of the
decks. -/

namespace Sys2Proof.Machine

/-- The step times a payload carries (Table 11-6). -/
def stepTimesAt (p : List Byte) : Steppers Nat := .ofFn fun n => byteAt p n.pos

/-- A write of the step times (R101). -/
def writeStepTimes (p : List Byte) (s : State) : Answered :=
  let t := stepTimesAt p
  (s.setAct { s.act with steppers := .ofFn fun n => { s.stepper n with stepTime := roundStepTime (t.get n) } },
    doneIf (Stepper.all.any fun n => decide (roundStepTime (t.get n) ≠ t.get n)), [])

/-- CONFIG WRITE of the step times (R101). -/
def execConfigWriteStepTimes (tag : Byte) (payload : List Byte) (s : State) : Host.Outcome State Fault Refusal :=
  configRequest .stepTimes 8 writeStepTimes tag payload s

/-- Whether a stepper's timer holds a step time. -/
def StepTimer.isStep : StepTimer → Bool
  | .step _ => true
  | _ => false

/-- Whether a stepper's timer holds a reversal pause. -/
def StepTimer.isPause : StepTimer → Bool
  | .pause _ => true
  | _ => false

/-- The step timer of a SEEKING stepper expires (R103). -/
def seekExpiry (n : Stepper) (s : State) : State :=
  match (s.stepper n).state, (s.stepper n).position with
  | .seeking, some p => if (s.stepper n).timer.isStep then stepperSeekFrom n p s else s
  | _, _ => s

/-- SEEK_STEP (R103). -/
def execSeekStep (n : Stepper) (s : State) : Host.Outcome State Fault Refusal := .next (seekExpiry n s)

/-- A reversal pause expires: in SEEKING by R104; in HOMING or VERIFYING it is the first step toward 0 (R105). -/
def pauseExpiry (n : Stepper) (s : State) : State :=
  if (s.stepper n).timer.isPause then
    match (s.stepper n).state with
    | .seeking => stepperPauseEnd n s
    | .homing | .verifying => deliverOutcome n (stepperReference n s)
    | _ => s
  else s

/-- REVERSAL_PAUSE_EXPIRY (R104). -/
def execReversalPauseExpiry (n : Stepper) (s : State) : Host.Outcome State Fault Refusal := settle (pauseExpiry n s)

/-- The timer of a stepper in a given state expires while it steps toward 0 (R105 to R108). -/
def referenceExpiry (st : StepperState) (n : Stepper) (s : State) : State :=
  if (s.stepper n).state = st ∧ (s.stepper n).timer ≠ .stopped then deliverOutcome n (stepperReference n s) else s

/-- HOME_STEP (R105, R106). -/
def execHomeStep (n : Stepper) (s : State) : Host.Outcome State Fault Refusal := settle (referenceExpiry .homing n s)

/-- VERIFY_STEP (R107, R108). -/
def execVerifyStep (n : Stepper) (s : State) : Host.Outcome State Fault Refusal := settle (referenceExpiry .verifying n s)

/-- HOME_SWITCH_CLOSE (R106, R108). -/
def execHomeSwitchClose (n : Stepper) (s : State) : Host.Outcome State Fault Refusal :=
  settle (deliverOutcome n (stepperSwitchClose n s))

/-- HOME_SWITCH_OPEN (R106). -/
def execHomeSwitchOpen (n : Stepper) (s : State) : Host.Outcome State Fault Refusal := .next (stepperSwitchOpen n s)

/-- SPIN_UP_EXPIRY (R115). -/
def execSpinUpExpiry (d : Deck) (s : State) : Host.Outcome State Fault Refusal := .next (spinUpDone d s)

/-- OVERHEAT_CUT_EXPIRY (R113). -/
def execOverheatCutExpiry (d : Deck) (s : State) : Host.Outcome State Fault Refusal := .next (cutDone d s)

/-- AFTER_RUN_EXPIRY (R114). -/
def execAfterRunExpiry (d : Deck) (s : State) : Host.Outcome State Fault Refusal := .next (afterRunDone d s)

end Sys2Proof.Machine
end

