-- ==== Sys2Proof/Machine/AirCommands.lean ====
section
/-! DEFINITION. Commands of the Air Quality Unit (03): the four AIR POLICY rows and the hold timer. -/

namespace Sys2Proof.Machine

/-- The actions of Table 3-3. -/
def isAirAction (n : Nat) : Bool := decide (n ≤ 3)

/-- What an AIR POLICY is answered where its action is the row's own, BAD_INDEX otherwise (R51). -/
def airAnswer (own : Nat) (act : Nat → State → State × Bool) (p : List Byte) (s : State) : Answered :=
  if byteAt p 0 = own then ((act (wordAt p 1) s).1, doneIf (act (wordAt p 1) s).2, []) else refuse .badIndex s

/-- An AIR POLICY request of one row. -/
def airRequest (own : Nat) (act : Nat → State → State × Bool) (tag : Byte) (payload : List Byte) (s : State) :
    Host.Outcome State Fault Refusal :=
  if selects isAirAction own payload.head? ∨ payload.length ≠ 3
  then request 0x09 (len 3) (airAnswer own act) tag payload s else .next s

/-- AIR POLICY SET MINIMUM (R51). -/
def execAirPolicySetMinimum (tag : Byte) (payload : List Byte) (s : State) : Host.Outcome State Fault Refusal :=
  airRequest 0 (fun v s => (setMinimum v s, decide (clampNat 0 1000 v ≠ v))) tag payload s

/-- AIR POLICY SET RATE (R51). -/
def execAirPolicySetRate (tag : Byte) (payload : List Byte) (s : State) : Host.Outcome State Fault Refusal :=
  airRequest 1 (fun v s => (setRate v s, decide (clampNat 4 15 v ≠ v))) tag payload s

/-- AIR POLICY START HOLD (R52, R53). -/
def execAirPolicyStartHold (tag : Byte) (payload : List Byte) (s : State) : Host.Outcome State Fault Refusal :=
  airRequest 2 (fun v s => (startHold v s, decide (clampNat 1 holdMax v ≠ v))) tag payload s

/-- AIR POLICY END HOLD (R54). -/
def execAirPolicyEndHold (tag : Byte) (payload : List Byte) (s : State) : Host.Outcome State Fault Refusal :=
  airRequest 3 (fun _ s => (endHold s, false)) tag payload s

/-- HOLD_TIMER_EXPIRY (R54). -/
def execHoldTimerExpiry (s : State) : Host.Outcome State Fault Refusal := .next (holdExpiry s)

end Sys2Proof.Machine
end

