-- ==== Sys2Proof/Machine/DriveCommands.lean ====
section
/-! DEFINITION. Commands of the Drive Line (05): the drive's records and the line's timers. -/

namespace Sys2Proof.Machine

/-! ## Records of the drive -/

/-- A record of the drive (Table 5-3). -/
inductive DriveRx where
  | startAck | running | status (speed power : Nat) (temperature : Int) | fault (code : Nat) | stopped
  deriving DecidableEq, Repr

/-- The record in a frame that passed its check; none where it is dropped (R88, R183, Table 11-9). -/
def driveRecordOf (body : List Byte) : Option DriveRx :=
  let p := body.drop 2
  match byteAt body 0, byteAt body 1 with
  | 0x11, 0 => some .startAck
  | 0x12, 0 => some .running
  | 0x13, 5 => some (.status (wordAt p 0) (wordAt p 2) (BitVec.toInt (p.getD 4 0)))
  | 0x14, 1 => if byteAt p 0 = 0 then none else some (.fault (byteAt p 0))
  | 0x15, 0 => some .stopped
  | _, _ => none

/-- A record of the drive is taken (R90, R91, R95, R96, R98). -/
def takeDriveRecord (r : DriveRx) (s : State) : State :=
  match r with
  | .startAck => dlnStartAck s
  | .running => deliver (dlnRunning s)
  | .status v w t => dlnStatus v w t s
  | .fault c => deliver (dlnFault c s)
  | .stopped => deliver (dlnStopped s)

/-- What the Drive Line does with an event of its line (R88). -/
def driveLineEvent (s : State) : LineEvent → State
  | .lost => dlnDropRecord s
  | .frame body =>
    match driveRecordOf body with
    | some r => takeDriveRecord r s
    | none => dlnDropRecord s

/-- DRIVE_RECORD_DROPPED (R88, R183): bytes arrive on the Drive Line; records that fail a check are dropped and counted,
a record among them that passes is taken (log 27). A record unfinished at their end is neither kept nor counted (DESIGN
CHOICE, log 40). -/
def execDriveRecordDropped (line : List Byte) (s : State) : Host.Outcome State Fault Refusal :=
  settle ((scanLine driveLine .idle line).foldl driveLineEvent s)

/-- DRIVE_START_ACK (R90). -/
def execDriveStartAck (s : State) : Host.Outcome State Fault Refusal := .next (dlnStartAck s)

/-- DRIVE_RUNNING (R91). -/
def execDriveRunning (s : State) : Host.Outcome State Fault Refusal := settle (deliver (dlnRunning s))

/-- Whether some STATUS record carries these figures (Table 11-9: two bytes, two bytes, one signed byte). -/
def statusFigures (speed power : Nat) (temperature : Int) : Bool :=
  decide (speed ≤ 65535) && decide (power ≤ 65535) && decide (-128 ≤ temperature) && decide (temperature ≤ 127)

/-- DRIVE_STATUS (R95). Figures that no record carries are no event (log 2). -/
def execDriveStatus (speed power : Nat) (temperature : Int) (s : State) : Host.Outcome State Fault Refusal :=
  .next (if statusFigures speed power temperature then dlnStatus speed power temperature s else s)

/-- DRIVE_FAULT_RECORD (R92, R93, R96); a code 0 is dropped and counted (R183). A code that no record carries is no event
(log 2). -/
def execDriveFaultRecord (code : Nat) (s : State) : Host.Outcome State Fault Refusal :=
  if code = 0 then .next (dlnDropRecord s)
  else if code ≤ 255 then settle (deliver (dlnFault code s))
  else .next s

/-- DRIVE_STOPPED (R92, R93, R98). -/
def execDriveStopped (s : State) : Host.Outcome State Fault Refusal := settle (deliver (dlnStopped s))

/-! ## Timers -/

/-- ACK_TIMER_EXPIRY (R92). -/
def execAckTimerExpiry (s : State) : Host.Outcome State Fault Refusal := settle (deliver (dlnAckExpiry s))

/-- RUNNING_TIMER_EXPIRY (R92). -/
def execRunningTimerExpiry (s : State) : Host.Outcome State Fault Refusal := settle (deliver (dlnRunningExpiry s))

/-- RETRY_TIMER_EXPIRY (R93). -/
def execRetryTimerExpiry (s : State) : Host.Outcome State Fault Refusal := .next (dlnRetryExpiry s)

/-- REFRESH_TIMER_EXPIRY (R94). -/
def execRefreshTimerExpiry (s : State) : Host.Outcome State Fault Refusal := .next (dlnRefreshExpiry s)

/-- SILENCE_TIMER_EXPIRY (R95). -/
def execSilenceTimerExpiry (s : State) : Host.Outcome State Fault Refusal := settle (deliver (dlnSilenceExpiry s))

/-- STOP_TIMER_EXPIRY (R98). -/
def execStopTimerExpiry (s : State) : Host.Outcome State Fault Refusal := settle (deliver (dlnStopExpiry s))

end Sys2Proof.Machine
end

