-- ==== Sys2Proof/Machine/PlantCommands.lean ====
section
/-! DEFINITION. Commands of the Plant Sequencer (04): its settings, CLEAR LOCKOUT, and its timers. -/

namespace Sys2Proof.Machine

/-- The plant settings a payload carries. -/
def plantSettingsAt (p : List Byte) : PlantSettings := ⟨wordAt p 0, wordAt p 2, wordAt p 4, wordAt p 6, wordAt p 8⟩

/-- Each setting clamped to its range (R62, Table 4-4). -/
def PlantSettings.clamp (c : PlantSettings) : PlantSettings :=
  ⟨clampNat 30 180 c.dwell, clampNat 150 400 c.dischargeLimit, clampNat 0 100 c.suctionLimit,
    clampNat 10 100 c.verifyDifference, clampNat 50 250 c.defrostClear⟩

/-- A write of the plant settings (R62). -/
def writePlantSettings (p : List Byte) (s : State) : Answered :=
  let c := plantSettingsAt p
  (s.setPsq { s.psq with settings := c.clamp }, doneIf (decide (c.clamp ≠ c)), [])

/-- CONFIG WRITE of the plant settings (R62). -/
def execConfigWritePlantSettings (tag : Byte) (payload : List Byte) (s : State) : Host.Outcome State Fault Refusal :=
  configRequest .plant 7 writePlantSettings tag payload s

/-- CLEAR LOCKOUT (R83). -/
def execClearLockout (tag : Byte) (payload : List Byte) (s : State) : Host.Outcome State Fault Refusal :=
  requestSettled 0x1B (len 0) (fun _ s => (plantClearLockout s, .done, [])) tag payload s

/-- ANTI_SHORT_CYCLE_EXPIRY (R72). -/
def execAntiShortCycleExpiry (s : State) : Host.Outcome State Fault Refusal := settle (plantAntiShortCycleExpiry s)

/-- DWELL_TIMER_EXPIRY (R69). -/
def execDwellTimerExpiry (s : State) : Host.Outcome State Fault Refusal := settle (plantDwellExpiry s)

/-- SETTLE_TIMER_EXPIRY (R70). -/
def execSettleTimerExpiry (s : State) : Host.Outcome State Fault Refusal := settle (plantSettleExpiry s)

/-- TRIP_TIMER_EXPIRY (R80). -/
def execTripTimerExpiry (s : State) : Host.Outcome State Fault Refusal := settle (plantTripExpiry s)

/-- DEFROST_TIMER_EXPIRY (R75). -/
def execDefrostTimerExpiry (s : State) : Host.Outcome State Fault Refusal := settle (plantDefrostExpiry s)

end Sys2Proof.Machine
end

