-- ==== Sys2Proof/Machine/RunnerCommands.lean ====
section
/-! DEFINITION. Commands of the Stage Runner (08): store and entries, start, hold, resume, stop, and the poll timer. -/

namespace Sys2Proof.Machine

/-- RUNNING or WAITING: store and entry writes are refused (R136, R137). -/
def Runner.active (r : Runner) : Bool :=
  match r.state with
  | .running | .waiting => true
  | _ => false

/-! ## Store and entries -/

/-- The stage records of a STAGES WRITE (Table 11-4). -/
def stagesOf (p : List Byte) : List StageBytes :=
  (List.range ((p.length - 1) / 8)).map fun k => stageAt p (1 + 8 * k)

/-- Whether every record's kind is one of Table 8-4, or EMPTY (R136). -/
def stageKindsOk (l : List StageBytes) : Bool := l.all fun b => decide (b.b0.toNat ≤ stageKindMax)

/-- Lengths of a STAGES WRITE: 1 + 8n, n = 1..24 (Table 11-2). -/
def stagesWriteLen (n : Nat) : Bool := decide (9 ≤ n) && decide (n ≤ 193) && decide ((n - 1) % 8 = 0)

/-- What a STAGES WRITE is answered (R136). -/
def stagesWriteAnswer (p : List Byte) (s : State) : Answered :=
  let first := byteAt p 0
  let l := stagesOf p
  if s.runner.active then refuse .runnerActive s
  else if storeSize < first + l.length then refuse .badIndex s
  else if stageKindsOk l then
    let s1 := s.setStr { s.str with store := storeWriteAll s.str.store first l }
    (resumeAfterWrite first l.length s1, .done, [])
  else refuse .badIndex s

/-- STAGES WRITE (R136). -/
def execStagesWrite (tag : Byte) (payload : List Byte) (s : State) : Host.Outcome State Fault Refusal :=
  request 0x0A stagesWriteLen stagesWriteAnswer tag payload s

/-- Records a STAGES READ returns at most (Table 11-5). -/
def stagesReadMax : Nat := 19

/-- What a STAGES READ is answered (R136, Table 11-5). -/
def stagesReadAnswer (p : List Byte) (s : State) : Answered :=
  let first := byteAt p 0
  if storeSize ≤ first then refuse .badIndex s
  else
    let n := min (byteAt p 1) (min stagesReadMax (storeSize - first))
    (s, .done, u8 first ++ u8 n ++ (List.range n).flatMap fun k => (s.stage (first + k)).replyBytes)

/-- STAGES READ (R136). -/
def execStagesRead (tag : Byte) (payload : List Byte) (s : State) : Host.Outcome State Fault Refusal :=
  request 0x0B (len 2) stagesReadAnswer tag payload s

/-- A start index field: 0xFF is UNSET (Table 11-4). The outer `none` is out of range. -/
def entryOf (n : Nat) : Option (Option Nat) :=
  if n = 0xFF then some none else if n < storeSize then some (some n) else none

/-- What an ENTRY WRITE is answered (R137). -/
def entryWriteAnswer (p : List Byte) (s : State) : Answered :=
  if s.runner.active then refuse .runnerActive s
  else match Idx8.at (byteAt p 0), entryOf (byteAt p 1) with
    | some l, some e => (s.setStr { s.str with entries := s.str.entries.set l e }, .done, [])
    | _, _ => refuse .badIndex s

/-- ENTRY WRITE (R137). -/
def execEntryWrite (tag : Byte) (payload : List Byte) (s : State) : Host.Outcome State Fault Refusal :=
  request 0x0C (len 2) entryWriteAnswer tag payload s

/-! ## Start, hold, resume, stop -/

/-- What a RUNNER START is answered (R151). -/
def runnerStartAnswer (p : List Byte) (s : State) : Answered :=
  match Idx8.at (byteAt p 0) with
  | none => refuse .badIndex s
  | some l =>
    match s.runner.state with
    | .idle | .stopped =>
      match s.str.entries.get l with
      | none => refuse .noList s
      | some i => (runnerStart l (flagAt p 1) i s, .done, [])
    | _ => refuse .runnerActive s

/-- RUNNER START (R151). -/
def execRunnerStart (tag : Byte) (payload : List Byte) (s : State) : Host.Outcome State Fault Refusal :=
  requestSettled 0x0D (len 2) runnerStartAnswer tag payload s

/-- What a RUNNER HOLD is answered (R152, Table 8-7). -/
def runnerHoldAnswer (_ : List Byte) (s : State) : Answered :=
  match s.runner.state with
  | .waiting => (suspend s, .done, [])
  | .suspended => (s, .done, [])
  | _ => refuse .notApplicable s

/-- RUNNER HOLD (R152). -/
def execRunnerHold (tag : Byte) (payload : List Byte) (s : State) : Host.Outcome State Fault Refusal :=
  request 0x0E (len 0) runnerHoldAnswer tag payload s

/-- What a RUNNER RESUME is answered (R154, Table 8-7). -/
def runnerResumeAnswer (_ : List Byte) (s : State) : Answered :=
  match s.runner.state, s.runner.resume with
  | .suspended, some r => (runnerResume r s, .done, [])
  | _, _ => refuse .notApplicable s

/-- RUNNER RESUME (R154). -/
def execRunnerResume (tag : Byte) (payload : List Byte) (s : State) : Host.Outcome State Fault Refusal :=
  requestSettled 0x0F (len 0) runnerResumeAnswer tag payload s

/-- RUNNER STOP (R155). -/
def execRunnerStop (tag : Byte) (payload : List Byte) (s : State) : Host.Outcome State Fault Refusal :=
  request 0x10 (len 0) (fun _ s => (runnerStop s, .done, [])) tag payload s

/-- POLL_TIMER_EXPIRY (R147, R149, R150). -/
def execPollTimerExpiry (s : State) : Host.Outcome State Fault Refusal := settle (pollExpiry s)

end Sys2Proof.Machine
end

