-- ==== Sys2Proof/Machine/SensorCommands.lean ====
section
/-! DEFINITION. Commands of the Sensor Scanner and the Watch Unit (07). -/

namespace Sys2Proof.Machine

/-! ## Channels -/

/-- The conversion pairs a payload carries (Table 11-6): offset, then gain. -/
def conversionAt (p : List Byte) (c : Channel) : Int × Nat := (intAt p (4 * c.pos), wordAt p (4 * c.pos + 2))

/-- A conversion pair clamped (R122). -/
def clampPair (x : Int × Nat) : Int × Nat := (clampInt (-5000) 5000 x.1, clampNat 1 20000 x.2)

/-- A write of the channel conversion table (R122). -/
def writeConversion (p : List Byte) (s : State) : Answered :=
  (s.setSsc (.ofFn fun c => { s.channel c with
      offset := (clampPair (conversionAt p c)).1, gain := (clampPair (conversionAt p c)).2 }),
    doneIf (Channel.all.any fun c => decide (clampPair (conversionAt p c) ≠ conversionAt p c)), [])

/-- CONFIG WRITE of the channel conversion (R122). -/
def execConfigWriteChannelConversion (tag : Byte) (payload : List Byte) (s : State) : Host.Outcome State Fault Refusal :=
  configRequest .conversion 9 writeConversion tag payload s

/-- The largest raw reading (R120). -/
def rawMax : Nat := 4095

/-- CHANNEL_SAMPLE (R120). A reading that the converter cannot give is no event (log 2). -/
def execChannelSample (c : Channel) (raw : Nat) (s : State) : Host.Outcome State Fault Refusal :=
  if raw ≤ rawMax then settle (takeSample c raw s) else .next s

/-- LOSS_TIMER_EXPIRY (R124). -/
def execLossTimerExpiry (c : Channel) (s : State) : Host.Outcome State Fault Refusal := settle (lossExpiry c s)

/-! ## Watches -/

/-- A watch direction code (Table 11-4). -/
def watchDirectionOf : Nat → Option WatchDirection
  | 0 => some .above
  | 1 => some .below
  | _ => none

/-- A watch as a WATCH SET writes it (R128): DISARMED, its counts 0, its values clamped. -/
def watchOf (c : Channel) (d : WatchDirection) (p : List Byte) : WatchRec where
  channel := c
  threshold := clampToRange c (intAt p 2)
  direction := d
  hysteresis := clampNat 0 500 (wordAt p 5)
  persistence := clampNat 1 15 (byteAt p 7)
  notify := bitOf (byteAt p 8) 0
  traceStart := bitOf (byteAt p 8) 1
  traceStop := bitOf (byteAt p 8) 2
  autoRearm := flagAt p 9
  state := .disarmed
  count := 0
  tripCount := 0
  tripValue := none

/-- Whether a WATCH SET clamps a value (R128). -/
def watchClamped (c : Channel) (p : List Byte) : Bool :=
  decide (clampToRange c (intAt p 2) ≠ intAt p 2) || decide (clampNat 0 500 (wordAt p 5) ≠ wordAt p 5) ||
    decide (clampNat 1 15 (byteAt p 7) ≠ byteAt p 7)

/-- What a WATCH SET is answered (R128). -/
def watchSetAnswer (p : List Byte) (s : State) : Answered :=
  match Idx8.at (byteAt p 0), Channel.at (byteAt p 1), watchDirectionOf (byteAt p 4) with
  | some w, some c, some d =>
    if byteAt p 8 < 8 then (s.setWatch w (watchOf c d p), doneIf (watchClamped c p), []) else refuse .badIndex s
  | _, _, _ => refuse .badIndex s

/-- WATCH SET (R128). -/
def execWatchSet (tag : Byte) (payload : List Byte) (s : State) : Host.Outcome State Fault Refusal :=
  request 0x13 (len 10) watchSetAnswer tag payload s

/-- What a WATCH READ is answered (R128). -/
def watchReadAnswer (p : List Byte) (s : State) : Answered :=
  match Idx8.at (byteAt p 0) with
  | some w => (s, .done, (s.watch w).bytes)
  | none => refuse .badIndex s

/-- WATCH READ (R128). -/
def execWatchRead (tag : Byte) (payload : List Byte) (s : State) : Host.Outcome State Fault Refusal :=
  request 0x14 (len 1) watchReadAnswer tag payload s

/-- What an ARM WATCH is answered where its action is the row's own (R132). -/
def armAnswer (own : Nat) (act : WatchRec → WatchRec) (p : List Byte) (s : State) : Answered :=
  match Idx8.at (byteAt p 0) with
  | some w => if byteAt p 1 = own then (s.setWatch w (act (s.watch w)), .done, []) else refuse .badIndex s
  | none => refuse .badIndex s

/-- The actions of ARM WATCH (Table 11-4). -/
def isArmAction (n : Nat) : Bool := decide (n ≤ 1)

/-- An ARM WATCH request of one row. -/
def armRequest (own : Nat) (act : WatchRec → WatchRec) (tag : Byte) (payload : List Byte) (s : State) :
    Host.Outcome State Fault Refusal :=
  if selects isArmAction own (payload.drop 1).head? ∨ payload.length ≠ 2
  then request 0x15 (len 2) (armAnswer own act) tag payload s else .next s

/-- ARM WATCH ARM (R132). -/
def execArmWatchArm (tag : Byte) (payload : List Byte) (s : State) : Host.Outcome State Fault Refusal :=
  armRequest 0 WatchRec.arm tag payload s

/-- ARM WATCH DISARM (R132). -/
def execArmWatchDisarm (tag : Byte) (payload : List Byte) (s : State) : Host.Outcome State Fault Refusal :=
  armRequest 1 WatchRec.disarm tag payload s

end Sys2Proof.Machine
end

