-- ==== Sys2Proof/Machine/ShareCommands.lean ====
section
/-! DEFINITION. Commands of the Share Allocator (02): the allowance, its timer and age, the last share result, and its
configuration tables. -/

namespace Sys2Proof.Machine

/-- What an ALLOWANCE is answered (R23). -/
def allowanceAnswer (p : List Byte) (s : State) : Answered :=
  (allowanceWrite (wordAt p 0) s, doneIf (decide (allowanceMax < wordAt p 0)), [])

/-- ALLOWANCE (R23). -/
def execAllowance (tag : Byte) (payload : List Byte) (s : State) : Host.Outcome State Fault Refusal :=
  request 0x05 (len 2) allowanceAnswer tag payload s

/-- VALIDITY_TIMER_EXPIRY (R24). -/
def execValidityTimerExpiry (s : State) : Host.Outcome State Fault Refusal := .next (validityExpiry s)

/-- ALLOWANCE_AGE_TICK (R23). -/
def execAllowanceAgeTick (s : State) : Host.Outcome State Fault Refusal := .next (ageTick s)

/-- SHARE READ (R41). -/
def execShareRead (tag : Byte) (payload : List Byte) (s : State) : Host.Outcome State Fault Refusal :=
  request 0x06 (len 0) (fun _ s => (s, .done, shareBytes s)) tag payload s

/-- The performance table a payload carries. -/
def perfAt (p : List Byte) : PerfRows PerfRow :=
  .ofFn fun i => ⟨intAt p (6 * i.pos), wordAt p (6 * i.pos + 2), wordAt p (6 * i.pos + 4)⟩

/-- Each value of a row clamped to its range (R32). -/
def PerfRow.clamp (r : PerfRow) : PerfRow :=
  ⟨clampInt (-400) 850 r.temp, clampNat 100 600 r.heating, clampNat 100 600 r.cooling⟩

/-- Every row's temperature is greater than the row's before it (R32). -/
def perfAscending (t : PerfRows PerfRow) : Bool :=
  decide (t.r1.temp < t.r2.temp) && decide (t.r2.temp < t.r3.temp) && decide (t.r3.temp < t.r4.temp) &&
    decide (t.r4.temp < t.r5.temp) && decide (t.r5.temp < t.r6.temp)

/-- A write of the performance table (R32). -/
def writePerf (p : List Byte) (s : State) : Answered :=
  let t := perfAt p
  let u : PerfRows PerfRow := .ofFn fun i => (t.get i).clamp
  if perfAscending u then (s.setSha { s.sha with perf := u }, doneIf (decide (u ≠ t)), []) else refuse .badTable s

/-- CONFIG WRITE of the performance table (R32). -/
def execConfigWritePerformanceTable (tag : Byte) (payload : List Byte) (s : State) : Host.Outcome State Fault Refusal :=
  configRequest .performance 5 writePerf tag payload s

/-- The blower stages a payload carries. -/
def blowersAt (p : List Byte) : BlowerStages BlowerRow := .ofFn fun i => ⟨wordAt p (4 * i.pos), wordAt p (4 * i.pos + 2)⟩

/-- A write of the blower stage table (R44). -/
def writeBlowers (p : List Byte) (s : State) : Answered :=
  let t := blowersAt p
  let u : BlowerStages BlowerRow := .ofFn fun i => ⟨clampNat 0 3000 (t.get i).power, clampNat 0 2000 (t.get i).airflow⟩
  (s.setSha { s.sha with blowers := u }, doneIf (decide (u ≠ t)), [])

/-- CONFIG WRITE of the blower stage table (R44). -/
def execConfigWriteBlowerStageTable (tag : Byte) (payload : List Byte) (s : State) : Host.Outcome State Fault Refusal :=
  configRequest .blowers 6 writeBlowers tag payload s

end Sys2Proof.Machine
end

