-- ==== Sys2Proof/Machine/SlotCommands.lean ====
section
/-! DEFINITION. Commands of the Operation Slot (10): the four OPERATION rows and the two ABORT rows. -/

namespace Sys2Proof.Machine

/-- What an OPERATION is answered (R173): the checks in order, then the operation starts with source BODY. -/
def operationAnswer (p : List Byte) (s : State) : Answered :=
  match opWorkOf (byteAt p 0) (wordAt p 1), offerAnswer (byteAt p 0) (wordAt p 1) s with
  | some w, .accepted c => (slotStart w .body s, doneIf c, [])
  | _, .busy => refuse .slotBusy s
  | _, .notApplicable => refuse .notApplicable s
  | _, _ => refuse .badIndex s

/-- The operation kinds of Table 11-4. -/
def isOperationKind (n : Nat) : Bool := decide (1 ≤ n) && decide (n ≤ 4)

/-- An OPERATION request of one row. -/
def operationRequest (own : Nat) (tag : Byte) (payload : List Byte) (s : State) : Host.Outcome State Fault Refusal :=
  if selects isOperationKind own payload.head? ∨ payload.length ≠ 3
  then requestSettled 0x11 (len 3) operationAnswer tag payload s else .next s

/-- OPERATION HOME (R173, R105). -/
def execOperationHome (tag : Byte) (payload : List Byte) (s : State) : Host.Outcome State Fault Refusal :=
  operationRequest 1 tag payload s

/-- OPERATION VERIFY (R173, R107). -/
def execOperationVerify (tag : Byte) (payload : List Byte) (s : State) : Host.Outcome State Fault Refusal :=
  operationRequest 2 tag payload s

/-- OPERATION DEFROST (R173, R74). -/
def execOperationDefrost (tag : Byte) (payload : List Byte) (s : State) : Host.Outcome State Fault Refusal :=
  operationRequest 3 tag payload s

/-- OPERATION PURGE (R173, R57). -/
def execOperationPurge (tag : Byte) (payload : List Byte) (s : State) : Host.Outcome State Fault Refusal :=
  operationRequest 4 tag payload s

/-- What an ABORT is answered where its timing is the row's own (R175). -/
def abortAnswer (own : Nat) (act : State → State) (p : List Byte) (s : State) : Answered :=
  if byteAt p 0 = own then (act s, .done, []) else refuse .badIndex s

/-- The timings of Table 11-4. -/
def isTiming (n : Nat) : Bool := decide (n ≤ 1)

/-- An ABORT request of one row. -/
def abortRequest (own : Nat) (act : State → State) (tag : Byte) (payload : List Byte) (s : State) :
    Host.Outcome State Fault Refusal :=
  if selects isTiming own payload.head? ∨ payload.length ≠ 1
  then requestSettled 0x12 (len 1) (abortAnswer own act) tag payload s else .next s

/-- ABORT NOW (R175). -/
def execAbortNow (tag : Byte) (payload : List Byte) (s : State) : Host.Outcome State Fault Refusal :=
  abortRequest 0 abortNowEffect tag payload s

/-- ABORT AT-BOUNDARY (R175). -/
def execAbortAtBoundary (tag : Byte) (payload : List Byte) (s : State) : Host.Outcome State Fault Refusal :=
  abortRequest 1 abortBoundaryEffect tag payload s

end Sys2Proof.Machine
end

