-- ==== Sys2Proof/Machine/TraceCommands.lean ====
section
/-! DEFINITION. Commands of the Trace Queue (09): the four TRACE CONTROL rows, TRACE READ and TRACE MARK. -/

namespace Sys2Proof.Machine

/-! ## TRACE CONTROL (R163) -/

/-- The settings a TRACE CONTROL gives; `none` is UNCHANGED (Table 11-4). -/
structure TraceSettings where
  level : Option Nat
  policy : Option Policy
  period : Option Nat
  deriving DecidableEq, Repr

/-- A policy code (Table 11-4). -/
def policyOf : Nat → Option Policy
  | 0 => some .discard
  | 1 => some .complete
  | _ => none

/-- The settings of a payload; none where a given policy is another value (R163). -/
def traceSettingsAt (p : List Byte) : Option TraceSettings :=
  let given := byteAt p 1
  let level := if bitOf given 0 then some (byteAt p 2) else none
  let period := if bitOf given 2 then some (byteAt p 4) else none
  if bitOf given 1 then (policyOf (byteAt p 3)).map fun x => ⟨level, some x, period⟩
  else some ⟨level, none, period⟩

/-- The settings are written (R163). -/
def writeTraceSettings (t : TraceSettings) (s : State) : State :=
  s.setTrq { s.trq with
    level := match t.level with
      | some n => clampNat 1 3 n
      | none => s.trq.level
    policy := t.policy.getD s.trq.policy
    snapshotPeriod := match t.period with
      | some n => roundSnapshotPeriod n
      | none => s.trq.snapshotPeriod }

/-- Whether the level or the snapshot period is clamped or rounded (R163). -/
def TraceSettings.clamped (t : TraceSettings) : Bool :=
  (match t.level with
    | some n => decide (clampNat 1 3 n ≠ n)
    | none => false) ||
  (match t.period with
    | some n => decide (roundSnapshotPeriod n ≠ n)
    | none => false)

/-- What a TRACE CONTROL is answered where its action is the row's own (R163). -/
def traceControlAnswer (own : Nat) (act : State → State) (p : List Byte) (s : State) : Answered :=
  if byteAt p 0 = own then
    match traceSettingsAt p with
    | some t =>
      let s1 := act (writeTraceSettings t s)
      (s1, doneIf t.clamped, traceControlBytes s1)
    | none => refuse .badIndex s
  else refuse .badIndex s

/-- The actions of Table 11-4. -/
def isTraceAction (n : Nat) : Bool := decide (n ≤ 3)

/-- A TRACE CONTROL request of one row. -/
def traceControlRequest (own : Nat) (act : State → State) (tag : Byte) (payload : List Byte) (s : State) :
    Host.Outcome State Fault Refusal :=
  if selects isTraceAction own payload.head? ∨ payload.length ≠ 5
  then request 0x16 (len 5) (traceControlAnswer own act) tag payload s else .next s

/-- TRACE CONTROL NONE (R163). -/
def execTraceControlNone (tag : Byte) (payload : List Byte) (s : State) : Host.Outcome State Fault Refusal :=
  traceControlRequest 0 id tag payload s

/-- The capture state becomes another (R163, ARM and STOP). -/
def setCapture (c : Capture) (s : State) : State := s.setTrq { s.trq with capture := c }

/-- TRACE CONTROL ARM (R163). -/
def execTraceControlArm (tag : Byte) (payload : List Byte) (s : State) : Host.Outcome State Fault Refusal :=
  traceControlRequest 1 (setCapture .armed) tag payload s

/-- TRACE CONTROL START (R163, R160). -/
def execTraceControlStart (tag : Byte) (payload : List Byte) (s : State) : Host.Outcome State Fault Refusal :=
  traceControlRequest 2 startCapture tag payload s

/-- TRACE CONTROL STOP (R163). -/
def execTraceControlStop (tag : Byte) (payload : List Byte) (s : State) : Host.Outcome State Fault Refusal :=
  traceControlRequest 3 (setCapture .off) tag payload s

/-! ## TRACE READ (R166) and TRACE MARK (R165) -/

/-- A GAP is placed for the records dropped, when a record left and some were (R166, step 3). Capture stays as it is, also
where the GAP brings the queue to 256 under COMPLETE (DESIGN CHOICE, log 48). -/
def placeGap (taken : Nat) (s : State) : State :=
  if 0 < taken ∧ 0 < s.trq.dropCount then
    s.setTrq { s.trq with
      queue := s.trq.queue ++ [⟨s.time, .gap s.trq.dropCount (s.trq.firstDrop.getD 0xFFFFFFFF)⟩]
      dropCount := 0, firstDrop := none }
  else s

/-- The read itself (R166): the state after it and the records taken. -/
def traceReadWork (n : Nat) (s : State) : State × List TraceRec :=
  let k := traceTake n traceRoom s.trq.queue
  (placeGap k (s.setTrq { s.trq with queue := s.trq.queue.drop k }), s.trq.queue.take k)

/-- What a TRACE READ is answered (R166, Table 11-5). A count of 0 is answered DONE_CLAMPED, also where the queue is empty
(DESIGN CHOICE, log 49). -/
def traceReadAnswer (p : List Byte) (s : State) : Answered :=
  let x := traceReadWork (max 1 (byteAt p 0)) s
  (x.1, doneIf (decide (byteAt p 0 = 0)),
    u16 x.1.trq.queue.length ++ u8 x.1.trq.capture.code ++ u16 x.1.trq.dropCount ++ u8 x.2.length
      ++ x.2.flatMap TraceRec.bytes)

/-- TRACE READ (R166). -/
def execTraceRead (tag : Byte) (payload : List Byte) (s : State) : Host.Outcome State Fault Refusal :=
  request 0x17 (len 1) traceReadAnswer tag payload s

/-- What a TRACE MARK is answered (R165). -/
def traceMarkAnswer (p : List Byte) (s : State) : Answered :=
  let x := offerRecord (.mark (wordAt p 0) .body) s
  (x.1, .done, u8 x.2.code)

/-- TRACE MARK (R165). -/
def execTraceMark (tag : Byte) (payload : List Byte) (s : State) : Host.Outcome State Fault Refusal :=
  request 0x18 (len 2) traceMarkAnswer tag payload s

end Sys2Proof.Machine
end

