-- ==== Sys2Proof/Machine/ZoneCommands.lean ====
section
/-! DEFINITION. Commands of the Zone Regulator (01): settings, vehicle state, reads, its configuration tables, the
open-door timer and the control period. -/

namespace Sys2Proof.Machine

/-! ## ZONE SET, ZONE READ, VEHICLE STATE -/

/-- A mode field of ZONE SET (Table 11-4). The outer `none` is a value it cannot take. -/
def modeFieldOf (n : Nat) : Option (Option ZoneMode) :=
  if n = 0xFF then some none else (zoneModeOf n).map some

/-- Whether a setpoint is clamped (R2). -/
def setpointClamped : Option Int → Bool
  | some v => decide (clampInt 160 300 v ≠ v)
  | none => false

/-- What a ZONE SET is answered (R2). -/
def zoneSetAnswer (p : List Byte) (s : State) : Answered :=
  match modeFieldOf (byteAt p 1) with
  | none => refuse .badIndex s
  | some m =>
    if zoneMaskOk (byteAt p 0) then
      (zoneWrite (byteAt p 0) m (setpointOf (wordAt p 2)) s, doneIf (setpointClamped (setpointOf (wordAt p 2))), [])
    else refuse .badIndex s

/-- ZONE SET (R2, R3). -/
def execZoneSet (tag : Byte) (payload : List Byte) (s : State) : Host.Outcome State Fault Refusal :=
  request 0x02 (len 4) zoneSetAnswer tag payload s

/-- What a ZONE READ is answered (R6). -/
def zoneReadAnswer (p : List Byte) (s : State) : Answered :=
  match Zone.at (byteAt p 0) with
  | some z => (s, .done, (s.zone z).bytes)
  | none => refuse .badIndex s

/-- ZONE READ (R6). -/
def execZoneRead (tag : Byte) (payload : List Byte) (s : State) : Host.Outcome State Fault Refusal :=
  request 0x03 (len 1) zoneReadAnswer tag payload s

/-- The occupancies of a VEHICLE STATE (Table 11-4). -/
def occupancies (p : List Byte) : Zones Nat := .ofFn fun z => byteAt p (1 + z.pos)

/-- Occupancies are clamped to 0..40 and written (R5). -/
def writeOccupancies (o : Zones Nat) (s : State) : State :=
  s.setZones (.ofFn fun z => { s.zone z with occupancy := clampNat 0 40 (o.get z) })

/-- What a VEHICLE STATE is answered (R5, R18, R19). A bit above 1 of the doors byte is ignored (DESIGN CHOICE, log 35). -/
def vehicleStateAnswer (p : List Byte) (s : State) : Answered :=
  let o := occupancies p
  (doorReport .d2 (bitOf (byteAt p 0) 1) (doorReport .d1 (bitOf (byteAt p 0) 0) (writeOccupancies o s)),
    doneIf (Zone.all.any fun z => decide (40 < o.get z)), [])

/-- VEHICLE STATE (R5). -/
def execVehicleState (tag : Byte) (payload : List Byte) (s : State) : Host.Outcome State Fault Refusal :=
  request 0x04 (len 7) vehicleStateAnswer tag payload s

/-- OPEN_DOOR_TIMER_EXPIRY (R19). -/
def execOpenDoorTimerExpiry (d : Door) (s : State) : Host.Outcome State Fault Refusal := .next (doorExpiry d s)

/-! ## Configuration tables (R4, R9) -/

/-- The gains a payload carries. -/
def gainsAt (p : List Byte) : Gains := ⟨wordAt p 0, wordAt p 2, wordAt p 4, wordAt p 6, wordAt p 8⟩

/-- Each gain clamped to its range (R9, Table 1-4). -/
def Gains.clamp (g : Gains) : Gains :=
  ⟨clampNat 0 100 g.kp, clampNat 0 32 g.ki, clampNat 0 1000 g.imax, clampNat 0 20 g.deadband, clampNat 1 50 g.band⟩

/-- A write of the gains table (R9). -/
def writeGains (p : List Byte) (s : State) : Answered :=
  let g := gainsAt p
  (setGains g.clamp s, doneIf (decide (g.clamp ≠ g)), [])

/-- CONFIG WRITE of the gains (R9). -/
def execConfigWriteGains (tag : Byte) (payload : List Byte) (s : State) : Host.Outcome State Fault Refusal :=
  configRequest .gains 1 writeGains tag payload s

/-- One byte for each zone. -/
def zoneBytes (p : List Byte) : Zones Nat := .ofFn fun z => byteAt p z.pos

/-- Whether clamping changes a zone's value. -/
def zonesClamped (lo hi : Nat) (t : Zones Nat) : Bool := Zone.all.any fun z => decide (clampNat lo hi (t.get z) ≠ t.get z)

/-- A write of the weights table (R4). -/
def writeWeights (p : List Byte) (s : State) : Answered :=
  let t := zoneBytes p
  (s.setZones (.ofFn fun z => { s.zone z with weight := clampNat 1 8 (t.get z) }), doneIf (zonesClamped 1 8 t), [])

/-- CONFIG WRITE of the weights (R4). -/
def execConfigWriteWeights (tag : Byte) (payload : List Byte) (s : State) : Host.Outcome State Fault Refusal :=
  configRequest .weights 2 writeWeights tag payload s

/-- A write of the kmax table (R4). -/
def writeKmax (p : List Byte) (s : State) : Answered :=
  let t := zoneBytes p
  (s.setZones (.ofFn fun z => { s.zone z with kmax := clampNat 0 4 (t.get z) }), doneIf (zonesClamped 0 4 t), [])

/-- CONFIG WRITE of kmax (R4). -/
def execConfigWriteKmax (tag : Byte) (payload : List Byte) (s : State) : Host.Outcome State Fault Refusal :=
  configRequest .kmax 3 writeKmax tag payload s

/-- A zone's flap limits after clamping and correction (R4). -/
def flapLimits (lo hi : Nat) : Nat × Nat :=
  let a := clampNat 0 200 lo
  let b := clampNat 0 200 hi
  if b ≤ a then (if a = 200 then (199, 200) else (a, a + 1)) else (a, b)

/-- The flap limits of each zone as a payload carries them. -/
def limitsAt (p : List Byte) (z : Zone) : Nat × Nat := (wordAt p (4 * z.pos), wordAt p (4 * z.pos + 2))

/-- A write of the flap limits table (R4). -/
def writeFlapLimits (p : List Byte) (s : State) : Answered :=
  let fit := fun z => flapLimits (limitsAt p z).1 (limitsAt p z).2
  (s.setZones (.ofFn fun z => { s.zone z with flapMin := (fit z).1, flapMax := (fit z).2 }),
    doneIf (Zone.all.any fun z => decide (fit z ≠ limitsAt p z)), [])

/-- CONFIG WRITE of the flap limits (R4). -/
def execConfigWriteFlapLimits (tag : Byte) (payload : List Byte) (s : State) : Host.Outcome State Fault Refusal :=
  configRequest .flapLimits 4 writeFlapLimits tag payload s

/-! ## The control period (R7, R8) -/

/-- A control period: borrowing, demands, in band, then the share pass on the demand set (R7, R8, R26). -/
def controlPeriodWork (s : State) : State :=
  sharePass (zonePeriod (borrowRefresh (s.setZrg { s.zrg with periodTimer := Timer.seconds controlPeriod })))

/-- CONTROL_PERIOD_EXPIRY (R7). -/
def execControlPeriodExpiry (s : State) : Host.Outcome State Fault Refusal := settle (controlPeriodWork s)

end Sys2Proof.Machine
end

