-- ==== Sys2Proof/Machine/Dispatch.lean ====
section
/-! DEFINITION. Every command and its meaning, one arm per row of spec/opcode_table.json. -/

namespace Sys2Proof.Machine

def exec (i : Instr) (s : State) : Host.Outcome State Fault Refusal :=
  match i with
  | .powerOn switches => Sys2Proof.Machine.execPowerOn switches s
  | .frameReceived line => Sys2Proof.Machine.execFrameReceived line s
  | .unknownKindRequest kind tag payload => Sys2Proof.Machine.execUnknownKindRequest kind tag payload s
  | .replySend => Sys2Proof.Machine.execReplySend s
  | .noticeSend => Sys2Proof.Machine.execNoticeSend s
  | .status tag payload => Sys2Proof.Machine.execStatus tag payload s
  | .zoneSet tag payload => Sys2Proof.Machine.execZoneSet tag payload s
  | .zoneRead tag payload => Sys2Proof.Machine.execZoneRead tag payload s
  | .vehicleState tag payload => Sys2Proof.Machine.execVehicleState tag payload s
  | .openDoorTimerExpiry door => Sys2Proof.Machine.execOpenDoorTimerExpiry door s
  | .allowance tag payload => Sys2Proof.Machine.execAllowance tag payload s
  | .validityTimerExpiry => Sys2Proof.Machine.execValidityTimerExpiry s
  | .allowanceAgeTick => Sys2Proof.Machine.execAllowanceAgeTick s
  | .shareRead tag payload => Sys2Proof.Machine.execShareRead tag payload s
  | .configWriteGains tag payload => Sys2Proof.Machine.execConfigWriteGains tag payload s
  | .configWriteWeights tag payload => Sys2Proof.Machine.execConfigWriteWeights tag payload s
  | .configWriteKmax tag payload => Sys2Proof.Machine.execConfigWriteKmax tag payload s
  | .configWriteFlapLimits tag payload => Sys2Proof.Machine.execConfigWriteFlapLimits tag payload s
  | .configWritePerformanceTable tag payload => Sys2Proof.Machine.execConfigWritePerformanceTable tag payload s
  | .configWriteBlowerStageTable tag payload => Sys2Proof.Machine.execConfigWriteBlowerStageTable tag payload s
  | .configWritePlantSettings tag payload => Sys2Proof.Machine.execConfigWritePlantSettings tag payload s
  | .configWriteStepTimes tag payload => Sys2Proof.Machine.execConfigWriteStepTimes tag payload s
  | .configWriteChannelConversion tag payload => Sys2Proof.Machine.execConfigWriteChannelConversion tag payload s
  | .configRead tag payload => Sys2Proof.Machine.execConfigRead tag payload s
  | .airPolicySetMinimum tag payload => Sys2Proof.Machine.execAirPolicySetMinimum tag payload s
  | .airPolicySetRate tag payload => Sys2Proof.Machine.execAirPolicySetRate tag payload s
  | .airPolicyStartHold tag payload => Sys2Proof.Machine.execAirPolicyStartHold tag payload s
  | .airPolicyEndHold tag payload => Sys2Proof.Machine.execAirPolicyEndHold tag payload s
  | .holdTimerExpiry => Sys2Proof.Machine.execHoldTimerExpiry s
  | .stagesWrite tag payload => Sys2Proof.Machine.execStagesWrite tag payload s
  | .stagesRead tag payload => Sys2Proof.Machine.execStagesRead tag payload s
  | .entryWrite tag payload => Sys2Proof.Machine.execEntryWrite tag payload s
  | .runnerStart tag payload => Sys2Proof.Machine.execRunnerStart tag payload s
  | .runnerHold tag payload => Sys2Proof.Machine.execRunnerHold tag payload s
  | .runnerResume tag payload => Sys2Proof.Machine.execRunnerResume tag payload s
  | .runnerStop tag payload => Sys2Proof.Machine.execRunnerStop tag payload s
  | .pollTimerExpiry => Sys2Proof.Machine.execPollTimerExpiry s
  | .operationHome tag payload => Sys2Proof.Machine.execOperationHome tag payload s
  | .operationVerify tag payload => Sys2Proof.Machine.execOperationVerify tag payload s
  | .operationDefrost tag payload => Sys2Proof.Machine.execOperationDefrost tag payload s
  | .operationPurge tag payload => Sys2Proof.Machine.execOperationPurge tag payload s
  | .abortNow tag payload => Sys2Proof.Machine.execAbortNow tag payload s
  | .abortAtBoundary tag payload => Sys2Proof.Machine.execAbortAtBoundary tag payload s
  | .watchSet tag payload => Sys2Proof.Machine.execWatchSet tag payload s
  | .watchRead tag payload => Sys2Proof.Machine.execWatchRead tag payload s
  | .armWatchArm tag payload => Sys2Proof.Machine.execArmWatchArm tag payload s
  | .armWatchDisarm tag payload => Sys2Proof.Machine.execArmWatchDisarm tag payload s
  | .traceControlNone tag payload => Sys2Proof.Machine.execTraceControlNone tag payload s
  | .traceControlArm tag payload => Sys2Proof.Machine.execTraceControlArm tag payload s
  | .traceControlStart tag payload => Sys2Proof.Machine.execTraceControlStart tag payload s
  | .traceControlStop tag payload => Sys2Proof.Machine.execTraceControlStop tag payload s
  | .traceRead tag payload => Sys2Proof.Machine.execTraceRead tag payload s
  | .traceMark tag payload => Sys2Proof.Machine.execTraceMark tag payload s
  | .noticeHold tag payload => Sys2Proof.Machine.execNoticeHold tag payload s
  | .noticeRelease tag payload => Sys2Proof.Machine.execNoticeRelease tag payload s
  | .clearLockout tag payload => Sys2Proof.Machine.execClearLockout tag payload s
  | .restart tag payload => Sys2Proof.Machine.execRestart tag payload s
  | .controlPeriodExpiry => Sys2Proof.Machine.execControlPeriodExpiry s
  | .antiShortCycleExpiry => Sys2Proof.Machine.execAntiShortCycleExpiry s
  | .dwellTimerExpiry => Sys2Proof.Machine.execDwellTimerExpiry s
  | .settleTimerExpiry => Sys2Proof.Machine.execSettleTimerExpiry s
  | .tripTimerExpiry => Sys2Proof.Machine.execTripTimerExpiry s
  | .defrostTimerExpiry => Sys2Proof.Machine.execDefrostTimerExpiry s
  | .driveRecordDropped line => Sys2Proof.Machine.execDriveRecordDropped line s
  | .driveStartAck => Sys2Proof.Machine.execDriveStartAck s
  | .driveRunning => Sys2Proof.Machine.execDriveRunning s
  | .driveStatus speed power temperature => Sys2Proof.Machine.execDriveStatus speed power temperature s
  | .driveFaultRecord code => Sys2Proof.Machine.execDriveFaultRecord code s
  | .driveStopped => Sys2Proof.Machine.execDriveStopped s
  | .ackTimerExpiry => Sys2Proof.Machine.execAckTimerExpiry s
  | .runningTimerExpiry => Sys2Proof.Machine.execRunningTimerExpiry s
  | .retryTimerExpiry => Sys2Proof.Machine.execRetryTimerExpiry s
  | .refreshTimerExpiry => Sys2Proof.Machine.execRefreshTimerExpiry s
  | .silenceTimerExpiry => Sys2Proof.Machine.execSilenceTimerExpiry s
  | .stopTimerExpiry => Sys2Proof.Machine.execStopTimerExpiry s
  | .seekStep stepper => Sys2Proof.Machine.execSeekStep stepper s
  | .reversalPauseExpiry stepper => Sys2Proof.Machine.execReversalPauseExpiry stepper s
  | .homeStep stepper => Sys2Proof.Machine.execHomeStep stepper s
  | .verifyStep stepper => Sys2Proof.Machine.execVerifyStep stepper s
  | .homeSwitchClose stepper => Sys2Proof.Machine.execHomeSwitchClose stepper s
  | .homeSwitchOpen stepper => Sys2Proof.Machine.execHomeSwitchOpen stepper s
  | .spinUpExpiry deck => Sys2Proof.Machine.execSpinUpExpiry deck s
  | .overheatCutExpiry deck => Sys2Proof.Machine.execOverheatCutExpiry deck s
  | .afterRunExpiry deck => Sys2Proof.Machine.execAfterRunExpiry deck s
  | .channelSample channel raw => Sys2Proof.Machine.execChannelSample channel raw s
  | .lossTimerExpiry channel => Sys2Proof.Machine.execLossTimerExpiry channel s
  | .partialFrameDiscarded => Sys2Proof.Machine.execPartialFrameDiscarded s

end Sys2Proof.Machine
end

