-- ==== Sys2Proof/Safety.lean ====
section
/-! DEFINITION. What a lawful state is, block by block: the ranges of the manual's tables, which timers run in which
states, and what the blocks hold of one another. Each law is stated of one record where it can be. -/

namespace Sys2Proof.Machine

/-! ## Zone Regulator and Share Allocator -/

/-- The ranges of a zone record (Table 1-2), with the integrator limit of R9. -/
structure ZoneRec.InRange (imax : Nat) (r : ZoneRec) : Prop where
  setpoint : 160 ≤ r.setpoint ∧ r.setpoint ≤ 300
  integrator : r.integrator.natAbs ≤ imax
  demand : r.demand.natAbs ≤ 1000
  weight : 1 ≤ r.weight ∧ r.weight ≤ 8
  occupancy : r.occupancy ≤ 40
  kmax : r.kmax ≤ 4
  flap : r.flapMin < r.flapMax ∧ r.flapMax ≤ 200

/-- All six zone records stand in their ranges (R1, R9). -/
structure State.ZonesInRange (s : State) : Prop where
  imax : s.zrg.gains.imax ≤ 1000
  zone : ∀ z, (s.zone z).InRange s.zrg.gains.imax

/-- The ranges of the Share Allocator's commands and of the allowance (Table 2-2, R22, R25). -/
structure Sha.Lawful (a : Sha) : Prop where
  command : a.command = 0 ∨ (compressorMin ≤ a.command ∧ a.command ≤ compressorMax)
  stages : a.stages.upper ≤ 4 ∧ a.stages.lower ≤ 4
  inUse : a.inUse ≤ allowanceMax
  effective : a.effective = effectiveOf a.inUse a.runnerCap
  fresh : a.allowState = .fresh ↔ a.validityTimer.isSome = true

/-! ## Air Quality Unit -/

/-- Hold, PURGE and damper of the Air Quality Unit (R50, R52, R54, R57). -/
structure Aqu.Lawful (a : Aqu) : Prop where
  phi : a.phi ≤ 1000
  hold : a.holdActive = a.holdTimer.isSome
  one : ¬(a.holdActive = true ∧ a.purgeActive = true)
  damper : a.damper ≤ 400

/-- The Air Quality Unit is lawful, and FAD has its damper target (R50, R111). -/
structure State.AirLaw (s : State) : Prop where
  unit : s.aqu.Lawful
  fad : (s.stepper .fad).target = s.aqu.damper

/-! ## Plant Sequencer and Drive Line -/

/-- A running mode stands in START and RUN only, with the valve on its side (R65, R66, R70). -/
def Psq.ValveLaw (p : Psq) : Prop :=
  match p.mode with
  | some m => (p.state = .start ∨ p.state = .run) ∧ p.valve = m.side
  | none => p.state ≠ .start ∧ p.state ≠ .run

/-- Fan and expansion valve follow state and running mode (R66, R84). -/
structure State.OutputLaw (s : State) : Prop where
  fan : s.psq.fanOn = s.psq.fanGoal
  eev : s.psq.eevTarget = s.psq.eevGoal
  stepper : (s.stepper .eev).target = s.psq.eevTarget

/-- Each timer of the Drive Line runs in its own link states (Table 5-5). -/
structure Dln.TimerLaw (d : Dln) : Prop where
  ack : d.ackTimer.isSome = true ↔ d.link = .startingAck
  running : d.runningTimer.isSome = true ↔ d.link = .startingRun
  retry : d.retryTimer.isSome = true ↔ d.link = .retryWait
  refresh : d.refreshTimer.isSome = true ↔ d.link = .running
  silence : d.silenceTimer.isSome = true ↔ d.link = .running
  stop : d.stopTimer.isSome = true ↔ d.link = .stopping

/-- The link state that a sequencer state asks for (R67, R68, R91). -/
def PlantDriveAgree (p : PlantState) (l : LinkState) : Prop :=
  match p with
  | .start => l = .startingAck ∨ l = .startingRun ∨ l = .retryWait
  | .run => l = .running
  | .rampdown => l = .stopping
  | _ => l = .off ∨ l = .stopping

/-- The Plant Sequencer: its running mode with its valve; DEFROST runs in a defrost sequence only (R65, R74); its timers
run in their own states (R61, R69, R70, R75, R80); at most three trips are remembered, and three only in LOCKOUT (R82);
the Drive Line stands in a state that goes with the sequencer's. -/
structure State.PlantLaw (s : State) : Prop where
  valve : s.psq.ValveLaw
  mark : ∀ m, s.psq.mode = some m → (m = .defrost ↔ s.psq.defrostMark ≠ .none)
  settle : s.psq.settleTimer.isSome = true ↔ s.psq.state = .shift
  trip : s.psq.tripTimer.isSome = true ↔ s.psq.state = .tripped
  dwell : s.psq.dwell.isRunning = true → s.psq.state = .equalize
  defrost : s.psq.defrostTimer.isSome = true ↔ (s.psq.state = .run ∧ s.psq.mode = some .defrost)
  trips : s.psq.tripHistory.length ≤ 3 ∧ (s.psq.tripHistory.length = 3 → s.psq.state = .lockout)
  drive : PlantDriveAgree s.psq.state s.dln.link

/-! ## Actuator Driver -/

/-- A stepper's record by its state (R100, R102 to R110). -/
def StepperRec.ByState (n : Stepper) (r : StepperRec) : Prop :=
  match r.state with
  | .unhomed | .fault => r.position = none ∧ r.refKind = .none ∧ r.timer = .stopped
  | .idle => r.position = some r.target ∧ r.refKind = .none ∧ r.timer = .stopped
  | .seeking => (∃ p, r.position = some p ∧ p ≤ travel n) ∧ r.refKind = .none ∧ r.timer ≠ .stopped
  | .homing => r.position = none ∧ r.refKind = .home ∧ r.switch = .opened ∧ r.count ≤ r.limit ∧ r.timer ≠ .stopped
  | .verifying =>
    r.position = (if r.count ≤ r.prior then some (r.prior - r.count) else none) ∧ r.prior ≤ travel n ∧
      r.limit = r.prior + referenceMargin ∧ r.switch = .opened ∧ r.count ≤ r.limit ∧
      (r.refKind = .operationVerify ∨ r.refKind = .automaticVerify) ∧ r.timer ≠ .stopped

/-- The record of a stepper is lawful: its target within its travel, and the law of its state. -/
structure StepperRec.Lawful (n : Stepper) (r : StepperRec) : Prop where
  target : r.target ≤ travel n
  byState : r.ByState n
  fault : r.state = .fault → r.faulted = true
  still : r.timer = .stopped → r.motion = .none

/-- All eight steppers are lawful. -/
def State.SteppersLawful (s : State) : Prop := ∀ n, (s.stepper n).Lawful n

/-- No heater step is on in a deck whose heaters are blocked (R113), and a blower that runs has a stage (R115). -/
structure State.DeckLaw (s : State) (d : Deck) : Prop where
  blocked : (s.deck d).blocked = true → ∀ z, zoneDeck z = d → s.act.stepsOn.get z = 0
  running : (s.deck d).running = true → 0 < (s.deck d).stage
  spinUp : (s.deck d).spinUp.isSome = true → 0 < (s.deck d).stage ∧ (s.deck d).running = false

def State.HeatersLawful (s : State) : Prop := ∀ d, s.DeckLaw d

/-! ## Sensor Scanner and Watch Unit -/

/-- A channel's record: the loss timer runs in HELD only, and a channel that was ever good has a value in its range
(R119, R121, R123, R124). -/
structure ChannelRec.Lawful (c : Channel) (r : ChannelRec) : Prop where
  loss : r.lossTimer.isSome = true ↔ r.quality = .held
  value : r.quality = .lost ∨ r.value.isSome = true
  range : ∀ v, r.value = some v → (channelRange c).1 ≤ v ∧ v ≤ (channelRange c).2
  gain : 1 ≤ r.gain ∧ r.gain ≤ 20000

/-- A watch's record: its count stays below its persistence, and a TRIPPED watch holds the value that tripped it (R127,
R129, R130). -/
structure WatchRec.Lawful (w : WatchRec) : Prop where
  persistence : 1 ≤ w.persistence ∧ w.persistence ≤ 15
  count : w.count < w.persistence
  idle : w.state ≠ .armed → w.count = 0
  tripped : w.state = .tripped → w.tripValue.isSome = true

def State.SensorsLawful (s : State) : Prop := (∀ c, (s.channel c).Lawful c) ∧ ∀ i, (s.watch i).Lawful

/-! ## Stage Runner, Trace Queue, Body Link Port, Operation Slot -/

/-- The runner between two commands (R138, R141, R146, R152): never RUNNING; WAITING with a current stage and its poll
timer; SUSPENDED with a resume point. -/
def Runner.ByState (r : Runner) : Prop :=
  match r.state with
  | .running => False
  | .waiting => (∃ i, r.current = some i ∧ i < storeSize) ∧ r.pollTimer.isSome = true ∧ r.waitingOn ≠ .none ∧
      r.resume = none
  | .suspended => (∃ p, r.resume = some p ∧ p.index < storeSize) ∧ r.pollTimer = none
  | .idle | .stopped => r.current = none ∧ r.pollTimer = none ∧ r.resume = none

structure Runner.Lawful (r : Runner) : Prop where
  burst : r.burstCount ≤ burstLimit
  phase : r.pollPhase ≤ 1
  byState : r.ByState

/-- The runner is lawful and nothing is on its way to it (log 7). -/
def State.RunnerLaw (s : State) : Prop := s.runner.Lawful ∧ s.mail = .empty

/-- Stage store in canonical form, entries within the store (R135, R137). -/
structure State.StoreLaw (s : State) : Prop where
  store : storeWf s.str.store = true
  entries : ∀ l i, s.str.entries.get l = some i → i < storeSize

/-- The trace queue (R158, R161, R163): at most 256 records; dropped records have a first drop time; level 1 to 3. -/
structure Trq.Lawful (t : Trq) : Prop where
  queue : t.queue.length ≤ traceCapacity
  drop : t.dropCount = 0 ↔ t.firstDrop = none
  level : 1 ≤ t.level ∧ t.level ≤ 3

/-- The receive queue holds at most four frames, each with a payload a frame can carry (R168, R169). -/
structure Blp.QueueLaw (b : Blp) : Prop where
  queue : b.queue.length ≤ receiveCapacity
  payload : ∀ f, f ∈ b.queue → f.payload.length ≤ maxPayload

/-- The Operation Slot and its status record (R173, R174): RUNNING, with the operation's kind and source, exactly while
an operation is held. -/
def State.SlotLaw (s : State) : Prop :=
  match s.ops.slot with
  | none => s.ops.status.state ≠ .running
  | some op => s.ops.status.kind = some op.work.kind ∧ s.ops.status.source = some op.source ∧
      s.ops.status.state = .running

/-! ## Commands and outcomes -/

/-- Nothing is on its way to the Stage Runner, and it awaits no end of an operation: the end of the command finds nothing
to take (log 7). -/
def State.Calm (s : State) : Prop := s.mail = .empty ∧ s.runner.awaitsEnd = false

/-- The Body Link Port can take this frame (R170): no reply waits, and the frame is the oldest received (or arrives now
at an empty queue, log 1). -/
def State.CanTake (s : State) (fr : Frame) : Prop :=
  s.blp.reply = none ∧ fr.payload.length ≤ maxPayload ∧ (s.blp.queue = [] ∨ s.blp.queue.head? = some fr)

/-- The state with the oldest received frame gone. -/
def State.taken (s : State) : State := s.setBlp { s.blp with queue := s.blp.queue.tail }

/-- The state with a reply waiting: its kind, its tag, its payload. -/
def State.replying (s : State) (kind tag : Byte) (payload : List Byte) : State :=
  s.setBlp { s.blp with reply := some ⟨kind, tag, payload⟩ }

end Sys2Proof.Machine

namespace Sys2Proof

open Sys2Proof.Machine

/-- A request as it stands on the link: its frame, and whether Table 11-2 gives its kind that length. -/
structure RequestForm where
  frame : Frame
  lengthOk : Bool

/-- The form of a request command (Table 11-2); none for the other commands. -/
def Instr.requestForm : Instr → Option RequestForm
  | .status t p => some ⟨⟨0x01, t, p⟩, len 1 p.length⟩
  | .zoneSet t p => some ⟨⟨0x02, t, p⟩, len 4 p.length⟩
  | .zoneRead t p => some ⟨⟨0x03, t, p⟩, len 1 p.length⟩
  | .vehicleState t p => some ⟨⟨0x04, t, p⟩, len 7 p.length⟩
  | .allowance t p => some ⟨⟨0x05, t, p⟩, len 2 p.length⟩
  | .shareRead t p => some ⟨⟨0x06, t, p⟩, len 0 p.length⟩
  | .configWriteGains t p | .configWriteWeights t p | .configWriteKmax t p | .configWriteFlapLimits t p
  | .configWritePerformanceTable t p | .configWriteBlowerStageTable t p | .configWritePlantSettings t p
  | .configWriteStepTimes t p | .configWriteChannelConversion t p => some ⟨⟨0x07, t, p⟩, decide (0 < p.length)⟩
  | .configRead t p => some ⟨⟨0x08, t, p⟩, len 1 p.length⟩
  | .airPolicySetMinimum t p | .airPolicySetRate t p | .airPolicyStartHold t p | .airPolicyEndHold t p =>
    some ⟨⟨0x09, t, p⟩, len 3 p.length⟩
  | .stagesWrite t p => some ⟨⟨0x0A, t, p⟩, stagesWriteLen p.length⟩
  | .stagesRead t p => some ⟨⟨0x0B, t, p⟩, len 2 p.length⟩
  | .entryWrite t p => some ⟨⟨0x0C, t, p⟩, len 2 p.length⟩
  | .runnerStart t p => some ⟨⟨0x0D, t, p⟩, len 2 p.length⟩
  | .runnerHold t p => some ⟨⟨0x0E, t, p⟩, len 0 p.length⟩
  | .runnerResume t p => some ⟨⟨0x0F, t, p⟩, len 0 p.length⟩
  | .runnerStop t p => some ⟨⟨0x10, t, p⟩, len 0 p.length⟩
  | .operationHome t p | .operationVerify t p | .operationDefrost t p | .operationPurge t p =>
    some ⟨⟨0x11, t, p⟩, len 3 p.length⟩
  | .abortNow t p | .abortAtBoundary t p => some ⟨⟨0x12, t, p⟩, len 1 p.length⟩
  | .watchSet t p => some ⟨⟨0x13, t, p⟩, len 10 p.length⟩
  | .watchRead t p => some ⟨⟨0x14, t, p⟩, len 1 p.length⟩
  | .armWatchArm t p | .armWatchDisarm t p => some ⟨⟨0x15, t, p⟩, len 2 p.length⟩
  | .traceControlNone t p | .traceControlArm t p | .traceControlStart t p | .traceControlStop t p =>
    some ⟨⟨0x16, t, p⟩, len 5 p.length⟩
  | .traceRead t p => some ⟨⟨0x17, t, p⟩, len 1 p.length⟩
  | .traceMark t p => some ⟨⟨0x18, t, p⟩, len 2 p.length⟩
  | .noticeHold t p => some ⟨⟨0x19, t, p⟩, len 0 p.length⟩
  | .noticeRelease t p => some ⟨⟨0x1A, t, p⟩, len 0 p.length⟩
  | .clearLockout t p => some ⟨⟨0x1B, t, p⟩, len 0 p.length⟩
  | .restart t p => some ⟨⟨0x1C, t, p⟩, len 0 p.length⟩
  | .unknownKindRequest k t p => if isRequestKind k then none else some ⟨⟨k, t, p⟩, true⟩
  | .powerOn _ | .frameReceived _ | .replySend | .noticeSend | .openDoorTimerExpiry _ | .validityTimerExpiry
  | .allowanceAgeTick | .holdTimerExpiry | .pollTimerExpiry | .controlPeriodExpiry | .antiShortCycleExpiry
  | .dwellTimerExpiry | .settleTimerExpiry | .tripTimerExpiry | .defrostTimerExpiry | .driveRecordDropped _
  | .driveStartAck | .driveRunning | .driveStatus _ _ _ | .driveFaultRecord _ | .driveStopped | .ackTimerExpiry
  | .runningTimerExpiry | .retryTimerExpiry | .refreshTimerExpiry | .silenceTimerExpiry | .stopTimerExpiry
  | .seekStep _ | .reversalPauseExpiry _ | .homeStep _ | .verifyStep _ | .homeSwitchClose _ | .homeSwitchOpen _
  | .spinUpExpiry _ | .overheatCutExpiry _ | .afterRunExpiry _ | .channelSample _ _ | .lossTimerExpiry _
  | .partialFrameDiscarded => none

end Sys2Proof
end

