-- ==== Sys2Proof/Certificates/Slice0/Obligations.lean ====
section
/-! DEFINITION. The statements for the provers, chapter by chapter of the manual. A request is answered with a reply whose
first byte is its result code: 0 DONE, 1 DONE_CLAMPED, 3 BAD_LENGTH, 4 BAD_INDEX, 5 BAD_TABLE, 6 SLOT_BUSY, 7
RUNNER_ACTIVE, 8 NO_LIST, 9 NOT_APPLICABLE (Table 11-3). -/

namespace Sys2Proof.Spec
end Sys2Proof.Spec

section

open Sys2Proof Sys2Proof.Machine Sys2Proof.Spec

/-! ## Steps, time, reset -/

/-- A step takes the command at the front of the queue and runs it with the queue's rest. -/
def Obligations.StepTakesTheFrontCommand : Prop :=
  ∀ (c : Instr) (s : State) (rest : List Instr),
    step (s.setPending (c :: rest)) = exec c (s.setPending rest)

/-- With no command waiting a step is one unit of the time base (the model's choice, log 3): the time base counts
modulo 2^32, every running timer loses 100 ms, down to 0, and nothing else changes. -/
def Obligations.IdleStepPassesTime : Prop :=
  ∀ s : State, s.pending = [] →
    let less (x : Timer) : Timer := x.map fun ms => ms - 100
    let dwell : Dwell := match s.psq.dwell with
      | .running ms => .running (ms - 100)
      | .stopped => .stopped
      | .expired => .expired
    let stepTimer (x : StepTimer) : StepTimer := match x with
      | .step ms => .step (ms - 100)
      | .pause ms => .pause (ms - 100)
      | .stopped => .stopped
    step s = .next { s with
      time := (s.time + 1) % 2 ^ 32
      zrg := { s.zrg with
        periodTimer := less s.zrg.periodTimer
        doors := .ofFn fun d => { s.door d with timer := less (s.door d).timer } }
      sha := { s.sha with validityTimer := less s.sha.validityTimer }
      aqu := { s.aqu with holdTimer := less s.aqu.holdTimer }
      psq := { s.psq with
        antiShortCycle := less s.psq.antiShortCycle, dwell := dwell, settleTimer := less s.psq.settleTimer
        tripTimer := less s.psq.tripTimer, defrostTimer := less s.psq.defrostTimer }
      dln := { s.dln with
        ackTimer := less s.dln.ackTimer, runningTimer := less s.dln.runningTimer, retryTimer := less s.dln.retryTimer
        refreshTimer := less s.dln.refreshTimer, silenceTimer := less s.dln.silenceTimer
        stopTimer := less s.dln.stopTimer }
      act := { s.act with
        steppers := .ofFn fun n => { s.stepper n with timer := stepTimer (s.stepper n).timer }
        decks := .ofFn fun d => { s.deck d with
          spinUp := less (s.deck d).spinUp, cutTimer := less (s.deck d).cutTimer
          afterRun := less (s.deck d).afterRun } }
      ssc := .ofFn fun c => { s.channel c with lossTimer := less (s.channel c).lossTimer }
      str := { s.str with runner := { s.runner with pollTimer := less s.runner.pollTimer } } }

/-- After power-on: the zone records, doors and gains (R1, R9, Tables 1-2 and 1-4), the Share Allocator, the Trace
Queue and the Body Link Port (R22, R158, R168, R172, Tables 2-2 to 2-4, 9-2, 10-1). -/
def Obligations.ResetValuesOfTables : Prop :=
  ((∀ z, State.reset.zone z =
    { mode := .off, setpoint := 220, measured := none, sensorUse := .blind, integrator := 0, demand := 0
      weight := (match z with
        | .u1 | .u2 | .u3 => 3
        | .l1 | .l2 => 2
        | .e => 1)
      occupancy := 0, doorFreeze := false, inBand := false, share := 0, shortfall := 0, granted := 0
      kmax := (match z with
        | .u1 | .u2 | .u3 => 2
        | .l1 | .l2 => 1
        | .e => 4)
      flapMin := 20, flapMax := 200, flapUsable := true }) ∧
  (∀ d, State.reset.door d = ⟨false, none⟩) ∧ State.reset.zrg.gains = ⟨25, 4, 600, 2, 5⟩) ∧
  (let a := State.reset.sha
  let q := State.reset.trq
  let b := State.reset.blp
  (a.hostValue, a.allowState, a.age, a.inUse, a.validityTimer, a.runnerCap, a.effective) =
    (0, .expired, 65535, 0, none, none, 0) ∧
  a.perf = ⟨⟨-200, 180, 500⟩, ⟨-100, 220, 480⟩, ⟨0, 270, 450⟩, ⟨100, 320, 400⟩, ⟨200, 360, 330⟩, ⟨350, 400, 240⟩⟩ ∧
  a.blowers = ⟨⟨180, 250⟩, ⟨350, 450⟩, ⟨600, 650⟩, ⟨900, 850⟩⟩ ∧
  (a.direction, a.idleCount, a.flipCount, a.starvedCount, a.starvationHold, a.command, a.stages, a.outdoor) =
    (.idle, 0, 0, 0, false, 0, ⟨0, 0⟩, none) ∧
  (a.last.order, a.last.shed, a.last.need, a.last.a, a.last.pe, a.last.totalShortfall) = ([], false, 0, 0, 0, 0) ∧
  (q.queue, q.capture, q.level, q.policy, q.snapshotPeriod, q.periodCount, q.dropCount, q.firstDrop) =
    ([], .off, 1, .discard, 16, 0, 0, none) ∧
  (b.queue, b.linkErrors, b.reply, b.holdFlag, b.notices) =
    ([], 0, none, false, { NoticeSet.empty with started := some ⟨.powerOn, 0⟩ }))

/-- The lawful states of this model hold the state after power-on. The model's choices in it: log 9, log 11. -/
def Obligations.ResetIsLawful : Prop :=
  let s := State.reset
  s.ZonesInRange ∧ s.sha.Lawful ∧ s.AirLaw ∧ s.OutputLaw ∧ s.dln.TimerLaw ∧ s.PlantLaw ∧ s.SteppersLawful ∧
    s.HeatersLawful ∧ s.SensorsLawful ∧ s.RunnerLaw ∧ s.StoreLaw ∧ s.trq.Lawful ∧ s.blp.QueueLaw ∧ s.SlotLaw

/-! ## What the statements of several chapters use -/

/-- A stepper at position 0 seeks a target (R106): IDLE there, or SEEKING upward one step time later. -/
def Sys2Proof.Spec.fromZero (r : StepperRec) (target : Nat) : StepperRec :=
  { r with
    position := some 0, stepsMoved := 0, verifyDue := false, refKind := .none, target := target
    state := if target = 0 then .idle else .seeking, motion := if target = 0 then .none else .up
    timer := if target = 0 then .stopped else .step r.stepTime }

/-- An automatic verify begins at a position (R107): under way, its first step one step time later; with the switch
CLOSED it ends at once with count 0, a slip where the position exceeds 4 (R108), and the stored target is sought. -/
def Sys2Proof.Spec.autoVerifies (r : StepperRec) (p : Nat) : StepperRec :=
  let u := { r with prior := p, count := 0, limit := p + 40, takenOver := false }
  match r.switch with
  | .opened => { u with state := .verifying, refKind := .automaticVerify, motion := .none, timer := .step r.stepTime }
  | .closed => fromZero { u with slipCount := if 4 < p then min 255 (r.slipCount + 1) else r.slipCount } r.target

/-- A stepper's record after a target arrives (R102, R104): the target is stored in every state. IDLE elsewhere it
becomes SEEKING, its first step one step time later. SEEKING with the target on the other side it takes a reversal pause
of two step times, and at the target it is IDLE, or verifies where a verify is due (R107); a pause that runs already goes
on. -/
def Sys2Proof.Spec.targetTaken (r0 : StepperRec) (t : Nat) : StepperRec :=
  let r := { r0 with target := t }
  let way (p : Nat) : Motion := if p < t then .up else .down
  match r.state, r.position with
  | .idle, some p => if t = p then r else { r with state := .seeking, motion := way p, timer := .step r.stepTime }
  | .seeking, some p =>
    match r.timer with
    | .pause _ => r
    | _ =>
      if t = p then
        if r.verifyDue then autoVerifies r p else { r with state := .idle, motion := .none, timer := .stopped }
      else if r.motion = way p then r
      else { r with motion := .none, timer := .pause (2 * r.stepTime) }
  | _, _ => r

/-- A stepper's record after an ABORT NOW (R109): a home leaves it UNHOMED, or in FAULT where it was faulted; a verify
taken over goes on as automatic; any other verify leaves it UNHOMED where its position is UNKNOWN, and IDLE otherwise,
from where it verifies with a verify due, or seeks its target. -/
def Sys2Proof.Spec.abortedStepper (r : StepperRec) : StepperRec :=
  let still := { r with refKind := .none, motion := .none, timer := .stopped, takenOver := false }
  match r.state with
  | .homing => { still with state := if r.faulted then .fault else .unhomed, position := none }
  | .verifying =>
    if r.takenOver then { r with refKind := .automaticVerify, takenOver := false }
    else match r.position with
      | none => { still with state := .unhomed }
      | some p =>
        if r.verifyDue then autoVerifies { still with state := .idle } p
        else if r.target = p then { still with state := .idle }
        else { still with state := .seeking, motion := if p < r.target then .up else .down, timer := .step r.stepTime }
  | _ => r

/-- A compressor command as it goes to the drive (R94): in RUN with the link RUNNING, one that differs from the power
sent is sent at once as a POWER, and the refresh timer restarts. -/
def Sys2Proof.Spec.powerHanded (s : State) (pe : Nat) : State :=
  if s.psq.state = .run ∧ s.dln.link = .running ∧ pe ≠ s.dln.powerSent then
    (s.setDln { s.dln with powerSent := pe, refreshTimer := some 500 }).setDriveOut
      (s.driveOut ++ (DriveTx.power pe).wire)
  else s

/-- The EEV target in RUN by running mode and compressor command, 100 without a running mode (R84). -/
def Sys2Proof.Spec.eevFor (m : Option RunMode) (pe : Nat) : Nat :=
  match m with
  | some .heat => min 480 (160 + pe * 60 / 1000)
  | some .cool => min 480 (200 + pe * 60 / 1000)
  | some .dehum => min 480 (180 + pe * 60 / 1000)
  | some .defrost => min 480 (300 + pe * 60 / 1000)
  | none => 100

/-- EEV after its target was worked out as g (R84): a target that differs from the one held is handed to it. -/
def Sys2Proof.Spec.eevHanded (r : StepperRec) (held g : Nat) : StepperRec :=
  if g = held then r else targetTaken r (min 480 g)

/-- A deck's record as the stage applied becomes n (R115): at 0 running is no and a spin-up stops; from 0 upward the
spin-up timer starts at 3 s and running stays no; among 1..4 both are kept. -/
def Sys2Proof.Spec.deckMoved (r : DeckRec) (n : Nat) : DeckRec :=
  if n = 0 then { r with stage := 0, running := false, spinUp := none }
  else if r.stage = 0 then { r with stage := n, running := false, spinUp := some 3000 }
  else { r with stage := n }

/-- The after-run timer when a deck's steps on go from b to a (R114): a fall to 0 starts it at 60 s, a rise from 0 stops
it. -/
def Sys2Proof.Spec.afterRunOf (b a : Nat) (x : Timer) : Timer :=
  if 0 < b ∧ a = 0 then some 60000 else if b = 0 ∧ 0 < a then none else x

/-- The steps on of a deck's zones. -/
def Sys2Proof.Spec.deckOn (d : Deck) (f : Zone → Nat) : Nat := ((deckZones d).map f).sum

/-- The floor stage of a deck (R27), with its after-run timer as given. -/
def Sys2Proof.Spec.floorOf (s : State) (afterRun : Timer) (d : Deck) : Nat :=
  let occupied : Bool := (deckZones d).any fun z => decide (0 < (s.zone z).occupancy)
  let idling : Bool := decide (0 < (s.deck d).stage ∧ (s.deck d).idleCount < 9)
  if s.aqu.purgeActive then 4 else if occupied || afterRun.isSome || idling then 1 else 0

/-- A stage lowered from another, one at a time, until both decks fit A or it stands at its floor, and no further (R28,
R42). -/
def Sys2Proof.Spec.loweredTo (watts : Nat → Nat) (other a floor old n : Nat) : Prop :=
  n ≤ old ∧ (n ≤ floor ∨ other + watts n ≤ a) ∧ ∀ k, n < k → k ≤ old → floor < k ∧ a < other + watts k

/-- The stages of both decks lowered to fit A, the lower deck first (R28, R42). -/
def Sys2Proof.Spec.stagesFit (s : State) (a : Nat) (floor : Deck → Nat) (old new : Decks Nat) : Prop :=
  let watts := stagePower s.sha.blowers
  loweredTo watts (watts old.upper) a (floor .lower) old.lower new.lower ∧
  loweredTo watts (watts new.lower) a (floor .upper) old.upper new.upper

/-- The relay outputs of a zone by the kmax table (R112): in table order from output 1 upward, while outputs remain. -/
def Sys2Proof.Spec.outputsOf (s : State) (z : Zone) : Relays :=
  let before := zoneSum fun y => if y.pos < z.pos then (s.zone y).kmax else 0
  ⟨1 + before, min (s.zone z).kmax (12 - before)⟩

/-- The values a zone borrows from (R16): the measured values of its deck-mates whose sensor use is GOOD. -/
def Sys2Proof.Spec.mateValues (s : State) (z : Zone) : List Int :=
  ((deckZones (zoneDeck z)).filter fun m => decide (m ≠ z ∧ (s.zone m).sensorUse = .good)).filterMap
    fun m => (s.zone m).measured

/-- An accepted operation takes the slot (R173): kind, source, state RUNNING, detail 0. -/
def Sys2Proof.Spec.slotTaken (src : Source) (w : OpWork) (n : Option Stepper) : Ops :=
  ⟨some ⟨w, src, false, n⟩, ⟨some w.kind, some src, .running, .zero⟩⟩

/-- The first step toward 0 of a home or verify, timed by the stepper's motion at the request (R105): none of its own
while a pause or a step downward is timing; a reversal pause of two step times from an upward motion; one step time
otherwise. -/
def Sys2Proof.Spec.firstStepTimed (r : StepperRec) : StepperRec :=
  match r.timer, r.motion with
  | .pause _, _ => r
  | _, .down => r
  | _, .up => { r with motion := .none, timer := .pause (2 * r.stepTime) }
  | _, .none => { r with timer := .step r.stepTime }

/-- The bit of a stepper in a mask (R180). -/
def Sys2Proof.Spec.bitFor (n : Stepper) : BitVec 8 := BitVec.ofNat 8 (2 ^ n.pos)

/-- A notice as it joins the pending set: with merge count 0, or replacing the content of a pending one and counting
the merge, saturating at 255 (R176). -/
def Sys2Proof.Spec.joined {α : Type} (o : Option (PendingNotice α)) (c : α) : Option (PendingNotice α) :=
  match o with
  | none => some ⟨c, 0⟩
  | some p => some ⟨c, min 255 (p.merged + 1)⟩

/-- The port after a request (R170): the frame gone, the reply waiting, the notices as given but for a TRACE STATE. -/
def Sys2Proof.Spec.portAfter (s t : State) (kind tag : Byte) (payload : List Byte) (n : NoticeSet) : Prop :=
  t.blp = { s.blp with
    queue := s.blp.queue.tail, reply := some ⟨kind, tag, payload⟩, notices := { n with traceState := t.notices.traceState } }

/-- A stop goes to the drive (R97): STOP is sent, the link is STOPPING with its stop timer at 5 s and no other timer;
a link that is STOPPING already stays as it is. -/
def Sys2Proof.Spec.stopSent (s t : State) : Prop :=
  if s.dln.link = .stopping then t.dln = s.dln ∧ t.driveOut = s.driveOut
  else t.driveOut = s.driveOut ++ DriveTx.stop.wire ∧ t.dln = { s.dln with
    link := .stopping, ackTimer := none, runningTimer := none, retryTimer := none, refreshTimer := none
    silenceTimer := none, stopTimer := some 5000 }

/-- Nothing changes outside the plant, its drive, EEV, the slot, the runner, the trace and the body link. -/
def Sys2Proof.Spec.plantOnly (s t : State) : Prop :=
  t = { s with psq := t.psq, dln := t.dln, driveOut := t.driveOut, ops := t.ops, trq := t.trq, blp := t.blp
               str := { s.str with runner := t.runner }, act := (s.setStepper .eev (t.stepper .eev)).act }

/-- The record of the sequencer at entry to RAMPDOWN (R66, R68). -/
def Sys2Proof.Spec.rampedDown (p : Psq) : Psq :=
  { p with state := .rampdown, mode := none, command := 0, verifyWindow := .closed, lowSuctionCount := 0
           fanOn := false, eevTarget := 100 }

/-- The sequencer at the end of a defrost sequence (R75, R76). -/
def Sys2Proof.Spec.defrostOver (p : Psq) (c : DefrostEnd) (frost : Nat) : Psq :=
  { p with defrostMark := .none, heatRunCount := 0, defrostTimer := none, lastDefrostEnd := some c, frost := frost }

/-- How a defrost end leaves the slot (R77): a DEFROST operation ends with the cause as its detail; an automatic
defrost leaves the slot as it is. -/
def Sys2Proof.Spec.defrostSlot (s t : State) (e : EndState) (c : DefrostEnd) : Prop :=
  (s.psq.defrostMark ≠ .operation → t.ops = s.ops ∧ t.notices.operationEnd = s.notices.operationEnd) ∧
  (s.psq.defrostMark = .operation → match s.ops.slot with
    | some op => op.work = .defrost →
      t.ops = ⟨none, ⟨some .defrost, some op.source, .ended e, .cause c⟩⟩ ∧
      t.notices.operationEnd = joined s.notices.operationEnd ⟨.defrost, op.source, e, .cause c⟩
    | none => t.ops = s.ops)

/-- The plant's record, its notices and the runner after a protective trip (R80 to R82, R153). -/
def Sys2Proof.Spec.tripRecorded (s t : State) (c : TripCause) (code : Nat) : Prop :=
  let age (stamp : Nat) : Nat := (s.time + (2 ^ 32 - stamp % 2 ^ 32)) % 2 ^ 32
  let h := (s.psq.tripHistory.filter fun x => decide (age x < 18000)) ++ [s.time]
  let locked := 3 ≤ h.length
  let rec' : FaultRecord := ⟨some c, s.psq.state, s.psq.mode, s.psq.wanted, code, s.time, h.length⟩
  let p : Psq := { s.psq with
    state := if locked then .lockout else .tripped, tripTimer := if locked then none else some 300000
    antiShortCycle := some 180000, faultRecord := rec', tripHistory := h, command := 0, mode := none, fanOn := false
    eevTarget := 100, verifyWindow := .closed, lowSuctionCount := 0, startPending := false, dwell := .stopped
    settleTimer := none, restartMark := false }
  t.psq = (if s.psq.defrostMark = .none then p else defrostOver p .tripped s.psq.frost) ∧
  t.notices.plantTrip = joined s.notices.plantTrip rec' ∧
  t.notices.lockout = (if locked then joined s.notices.lockout () else s.notices.lockout) ∧
  t.runner = (if s.runner.state = .waiting ∧ s.runner.suspendOnTrip = true then (suspend s).runner else s.runner)

/-- The state after a protective trip (R80 to R82), with the end of a DEFROST operation (R77). -/
def Sys2Proof.Spec.tripsWith (s t : State) (c : TripCause) (code : Nat) : Prop :=
  tripRecorded s t c code ∧ defrostSlot s t .failed .tripped

/-- What a start is for (R65): DEFROST during a defrost sequence, the recorded wanted mode otherwise. -/
def Sys2Proof.Spec.startsFor (p : Psq) : Option RunMode :=
  if p.defrostMark ≠ .none then some .defrost
  else match p.wanted with
    | .idle => none
    | .heat => some .heat
    | .cool => some .cool
    | .dehum => some .dehum

/-- A block of a start (R65). -/
def Sys2Proof.Spec.blocked (p : Psq) : Prop :=
  p.antiShortCycle.isSome = true ∨ p.eevFaulted = true ∨ p.pSuc.quality = .lost ∨ p.pDis.quality = .lost

/-- Entry to START in a mode (R67, R89): the start request is taken by a line that is OFF; any other line answers
start failed, and the plant trips. -/
def Sys2Proof.Spec.startsIn (s t : State) (m : RunMode) : Prop :=
  (s.dln.link = .off →
    t.psq = { s.psq with state := .start, mode := some m, startPending := false, fanOn := false, eevTarget := 100 } ∧
    t.dln = { s.dln with initialPower := 0, powerSent := 0, attempts := 1, failure := .none, ackTimer := some 200
                         link := .startingAck } ∧
    t.driveOut = s.driveOut ++ (DriveTx.start 0).wire) ∧
  (s.dln.link ≠ .off → t.psq.faultRecord.cause = some .driveStartFailed ∧ t.psq.faultRecord.time = s.time)

/-- Entry to SHIFT (R66, R70): the valve's coil output is energized on the HEAT-SIDE (00, Table 2). -/
def Sys2Proof.Spec.shiftsTo (s t : State) (side : Valve) : Prop :=
  t.psq = { s.psq with state := .shift, valve := side, startPending := false, settleTimer := some 2000, fanOn := false
                       eevTarget := 100 } ∧
  t.psq.coilEnergized = decide (side = .heatSide) ∧ t.dln = s.dln ∧ t.driveOut = s.driveOut

/-- The start decision (R65) as it is taken in a state, outside the case of R76. -/
def Sys2Proof.Spec.decidesStart (s t : State) : Prop :=
  match startsFor s.psq with
  | none => t.psq = { s.psq with state := .stopped, startPending := false } ∧ t.dln = s.dln ∧ t.driveOut = s.driveOut
  | some m =>
    (blocked s.psq → t.psq = { s.psq with startPending := true } ∧ t.dln = s.dln ∧ t.driveOut = s.driveOut) ∧
    (¬blocked s.psq → s.psq.valve = m.side → startsIn s t m) ∧
    (¬blocked s.psq → s.psq.valve ≠ m.side → shiftsTo s t m.side)

/-- What a decision event leaves of plant and drive (R65, R76): the decision in STOPPED, and in EQUALIZE with its dwell
expired; nothing in any other state; a defrost sequence that finds EEV in FAULT ends ABORTED first and the decision is
taken for the wanted mode. -/
def Sys2Proof.Spec.decisionTaken (s t : State) : Prop :=
  if s.psq.state = .stopped ∨ (s.psq.state = .equalize ∧ s.psq.dwell = .expired) then
    (s.psq.defrostMark ≠ .none → s.psq.eevFaulted = true →
      decidesStart (s.setPsq (defrostOver s.psq .aborted s.psq.frost)) t) ∧
    (s.psq.defrostMark = .none ∨ s.psq.eevFaulted = false → decidesStart s t)
  else t.psq = s.psq ∧ t.dln = s.dln ∧ t.driveOut = s.driveOut

/-- What a decision event leaves (R65, R76, R77). -/
def Sys2Proof.Spec.afterDecision (s t : State) : Prop :=
  plantOnly s t ∧ decisionTaken s t ∧
  ((s.psq.state = .stopped ∨ (s.psq.state = .equalize ∧ s.psq.dwell = .expired)) → s.psq.defrostMark ≠ .none →
    s.psq.eevFaulted = true → defrostSlot s t .aborted .aborted)

/-! ## Zone Regulator (01) -/

/-- A zone record after a setpoint and a mode, each when given, are written (R2, R3 and Table 1-3). -/
def Sys2Proof.Spec.zoneWritten (mode : Option ZoneMode) (setpoint : Option Int) (r : ZoneRec) : ZoneRec :=
  let r := match setpoint with
    | some v => { r with setpoint := if v < 160 then 160 else if 300 < v then 300 else v }
    | none => r
  match mode with
  | none => r
  | some .off => if r.mode = .off then r else { r with mode := .off, integrator := 0, demand := 0, inBand := false }
  | some .vent => if r.mode = .vent then r else { r with mode := .vent, demand := 0, inBand := false }
  | some .regulate => { r with mode := .regulate }

/-- ZONE SET (R2, R3, Table 1-3): with a mask of 1 to 63 and a mode of OFF, VENT, REGULATE or UNCHANGED, every zone
of the mask is written and no other zone; the reply tells whether a setpoint was clamped; nothing else changes. Any
other mask or mode is refused with BAD_INDEX (4). 0x7FFF is the setpoint UNCHANGED (R179). The model's choices in it:
log 1. -/
def Obligations.ZoneSetWritesNamedZones : Prop :=
  ∀ (s : State) (tag mask mode hi lo : Byte), s.CanTake ⟨0x02, tag, [mask, mode, hi, lo]⟩ →
    let n := hi.toNat * 256 + lo.toNat
    let v : Int := if n < 32768 then (n : Int) else (n : Int) - 65536
    let sp : Option Int := if n = 0x7FFF then none else some v
    let clamped := n ≠ 0x7FFF ∧ (v < 160 ∨ 300 < v)
    let written (m : Option ZoneMode) (t : State) := ∃ zones : Zones ZoneRec,
      t = ((s.taken.setZones zones).replying 0x82 tag [if clamped then 1 else 0]) ∧
        ∀ z, zones.get z = if mask.toNat.testBit z.pos then zoneWritten m sp (s.zone z) else s.zone z
    (1 ≤ mask.toNat ∧ mask.toNat < 64 →
      (mode = 0 → ∃ t, exec (.zoneSet tag [mask, mode, hi, lo]) s = .next t ∧ written (some .off) t) ∧
      (mode = 1 → ∃ t, exec (.zoneSet tag [mask, mode, hi, lo]) s = .next t ∧ written (some .vent) t) ∧
      (mode = 2 → ∃ t, exec (.zoneSet tag [mask, mode, hi, lo]) s = .next t ∧ written (some .regulate) t) ∧
      (mode = 0xFF → ∃ t, exec (.zoneSet tag [mask, mode, hi, lo]) s = .next t ∧ written none t)) ∧
    (mask = 0 ∨ 64 ≤ mask.toNat ∨ (3 ≤ mode.toNat ∧ mode ≠ 0xFF) →
      exec (.zoneSet tag [mask, mode, hi, lo]) s = .next (s.taken.replying 0x82 tag [4]))

/-- VEHICLE STATE (R5, R18, R19): each occupancy is clamped to 0..40 and written; a door reported open while held
closed opens, freezes its zone (D1: E, D2: L2) and starts its timer at 120 s; a door reported closed while held open
closes, unfreezes its zone and stops its timer; a door reported as it is held changes nothing; a set bit of the doors
byte above bit 1 is ignored (the model's choice, log 35). Nothing else changes. The open-door timer's expiry
unfreezes the door's zone, stops the timer and leaves the door open (R19). The model's choices in it: log 1, log 2,
log 35. -/
def Obligations.VehicleStateAndDoorTimer : Prop :=
  (∀ (s : State) (tag doors o0 o1 o2 o3 o4 o5 : Byte), s.CanTake ⟨0x04, tag, [doors, o0, o1, o2, o3, o4, o5]⟩ →
    let occ : Zones Nat := ⟨o0.toNat, o1.toNat, o2.toNat, o3.toNat, o4.toNat, o5.toNat⟩
    let reported : Door → Bool := fun d => doors.toNat.testBit d.pos
    let door : Door → DoorRec := fun d =>
      if (s.door d).isOpen = reported d then s.door d else if reported d then ⟨true, some 120000⟩ else ⟨false, none⟩
    let freeze : Door → Zone → Bool := fun d z =>
      if (s.door d).isOpen = reported d then (s.zone z).doorFreeze else reported d
    ∃ t, exec (.vehicleState tag [doors, o0, o1, o2, o3, o4, o5]) s = .next t ∧
      t = ((s.taken.setZrg { s.zrg with zones := t.zrg.zones, doors := t.zrg.doors }).replying 0x84 tag
        [if Zone.all.any (fun z => decide (40 < occ.get z)) then 1 else 0]) ∧
      (∀ d, t.door d = door d) ∧
      (∀ z, z ≠ .e → z ≠ .l2 → t.zone z = { s.zone z with occupancy := min 40 (occ.get z) }) ∧
      t.zone .e = { s.zone .e with occupancy := min 40 (occ.get .e), doorFreeze := freeze .d1 .e } ∧
      t.zone .l2 = { s.zone .l2 with occupancy := min 40 (occ.get .l2), doorFreeze := freeze .d2 .l2 }) ∧
  (∀ (s : State) (d : Door), (s.door d).timer.isSome = true →
    let z : Zone := match d with
      | .d1 => .e
      | .d2 => .l2
    exec (.openDoorTimerExpiry d) s =
      .next ((s.setDoor d ⟨(s.door d).isOpen, none⟩).setZone z { s.zone z with doorFreeze := false }))

/-- What a control period leaves of a zone's demand, integrator and in band (R10 to R13), given where its measured
value comes from at that expiry. -/
def Sys2Proof.Spec.periodOf (g : Gains) (r : ZoneRec) (use : SensorUse) (measured : Option Int) : Int × Int × Bool :=
  match r.mode, measured with
  | .off, _ => (0, 0, false)
  | .vent, _ => (0, r.integrator, false)
  | .regulate, none => (0, r.integrator, false)
  | .regulate, some m =>
    if use = .blind then (0, r.integrator, false)
    else
      let e : Int := max (-200) (min 200 (r.setpoint - m))
      let p : Int := g.kp * e
      let hold := 1000 ≤ (p + r.integrator).natAbs ∧ ((0 < e ∧ 0 < r.integrator) ∨ (e < 0 ∧ r.integrator < 0))
      let i : Int :=
        if g.deadband < e.natAbs ∧ r.doorFreeze = false ∧ ¬hold then
          max (-(g.imax : Int)) (min g.imax (r.integrator + ((g.ki : Int) * e).tdiv 16))
        else r.integrator
      (max (-1000) (min 1000 (p + i)), i, decide ((r.setpoint - m).natAbs ≤ g.band))

/-- The control period (R7, R10 to R13, R16, R17): it is answered with a next state in which every zone has the
demand, the integrator and the in band that R10 to R13 give it, from the measured value and the sensor use at that
expiry; the period timer runs again for 2 s; mode, setpoint, weight, occupancy, door freeze, kmax, flap limits and
flap usable are kept. A zone whose channel is LOST takes the truncated mean of the measured values of its GOOD
deck-mates and is BORROWED, or, without one, is BLIND with its measured value kept; any other zone keeps both. -/
def Obligations.ControlPeriodBorrowsAndComputes : Prop :=
  (∀ s : State, s.Calm → ∃ t, exec .controlPeriodExpiry s = .next t ∧ t.zrg.periodTimer = some 2000 ∧
    t.zrg.gains = s.zrg.gains ∧ t.zrg.doors = s.zrg.doors ∧
    ∀ z, let r := s.zone z
      let u := t.zone z
      (u.demand, u.integrator, u.inBand) = periodOf s.zrg.gains r u.sensorUse u.measured ∧
      u.mode = r.mode ∧ u.setpoint = r.setpoint ∧ u.weight = r.weight ∧ u.occupancy = r.occupancy ∧
      u.doorFreeze = r.doorFreeze ∧ u.kmax = r.kmax ∧ u.flapMin = r.flapMin ∧ u.flapMax = r.flapMax ∧
      u.flapUsable = r.flapUsable) ∧
  (∀ (s t : State) (z : Zone), s.Calm → exec .controlPeriodExpiry s = .next t →
    let values := mateValues s z
    ((s.channel (zoneChannel z)).quality ≠ .lost →
      (t.zone z).measured = (s.zone z).measured ∧ (t.zone z).sensorUse = (s.zone z).sensorUse) ∧
    ((s.channel (zoneChannel z)).quality = .lost → values = [] →
      (t.zone z).measured = (s.zone z).measured ∧ (t.zone z).sensorUse = .blind) ∧
    ((s.channel (zoneChannel z)).quality = .lost → values ≠ [] →
      (t.zone z).measured = some (values.sum.tdiv values.length) ∧ (t.zone z).sensorUse = .borrowed))

/-- The two-byte field at an offset of a payload, unsigned, most significant byte first (11). -/
def Sys2Proof.Spec.field (p : List Byte) (i : Nat) : Nat := (p.getD i 0).toNat * 256 + (p.getD (i + 1) 0).toNat

/-- CONFIG WRITE of the weights, kmax, flap limits and gains (R4, R9): each table is replaced whole, every value
clamped to its range, a flap pair out of order corrected; a new Imax clamps every integrator at once, demands stay;
the reply tells whether anything was clamped or corrected; nothing else changes. The model's choices in it: log 1. -/
def Obligations.ConfigWriteReplacesZoneTables : Prop :=
  (∀ (s : State) (tag : Byte) (p : List Byte),
    let v : Zone → Nat := fun z => (p.getD z.pos 0).toNat
    let lo : Zone → Nat := fun z => field p (4 * z.pos)
    let hi : Zone → Nat := fun z => field p (4 * z.pos + 2)
    let fits : Zone → Bool := fun z => decide (lo z < hi z ∧ hi z ≤ 200)
    let pair : Zone → Nat × Nat := fun z =>
      if min 200 (lo z) < min 200 (hi z) then (lo z, min 200 (hi z))
      else if 200 ≤ lo z then (199, 200) else (lo z, lo z + 1)
    (p.length = 6 → s.CanTake ⟨0x07, tag, 2 :: p⟩ →
      exec (.configWriteWeights tag (2 :: p)) s =
        .next ((s.taken.setZones (.ofFn fun z => { s.zone z with weight := max 1 (min 8 (v z)) })).replying 0x87 tag
          [if Zone.all.all fun z => decide (1 ≤ v z ∧ v z ≤ 8) then 0 else 1])) ∧
    (p.length = 6 → s.CanTake ⟨0x07, tag, 3 :: p⟩ →
      exec (.configWriteKmax tag (3 :: p)) s =
        .next ((s.taken.setZones (.ofFn fun z => { s.zone z with kmax := min 4 (v z) })).replying 0x87 tag
          [if Zone.all.all fun z => decide (v z ≤ 4) then 0 else 1])) ∧
    (p.length = 24 → s.CanTake ⟨0x07, tag, 4 :: p⟩ →
      exec (.configWriteFlapLimits tag (4 :: p)) s =
        .next ((s.taken.setZones (.ofFn fun z => { s.zone z with flapMin := (pair z).1, flapMax := (pair z).2 })).replying
          0x87 tag [if Zone.all.all fits then 0 else 1]))) ∧
  (∀ (s : State) (tag : Byte) (p : List Byte), p.length = 10 → s.CanTake ⟨0x07, tag, 1 :: p⟩ →
    let imax := min 1000 (field p 4)
    let inRange := field p 0 ≤ 100 ∧ field p 2 ≤ 32 ∧ field p 4 ≤ 1000 ∧ field p 6 ≤ 20 ∧ 1 ≤ field p 8 ∧ field p 8 ≤ 50
    exec (.configWriteGains tag (1 :: p)) s =
      .next ((s.taken.setZrg { s.zrg with
          gains := ⟨min 100 (field p 0), min 32 (field p 2), imax, min 20 (field p 6), max 1 (min 50 (field p 8))⟩
          zones := .ofFn fun z => { s.zone z with
            integrator := max (-(imax : Int)) (min imax (s.zone z).integrator) } }).replying 0x87 tag
        [if inRange then 0 else 1]))

/-! ## Share Allocator (02) -/

/-- The power of the standing commands: blowers, compressor, heaters (R42). -/
def Sys2Proof.Spec.standing (s : State) : Nat :=
  blowerPower s.sha.blowers s.sha.stages + s.sha.command + 500 * zoneSum fun z => (s.zone z).granted

/-- ALLOWANCE (R23): the value, clamped to 40 000, is written and in use, FRESH with age 0, its validity timer at 10
s, and A is the lower of it and the runner cap. Validity timer expiry (R24): the record becomes EXPIRED, at most 4000
W stay in use, an ALLOWANCE EXPIRED notice is raised. Where the standing commands fit A, B by the blower table as it
stands (the model's choice, log 37), nothing else changes (a shedding may move EEV, whose verify may fill a COMPLETE
trace: a TRACE STATE is then raised too). The age counts seconds and saturates. The model's choices in it: log 1, log
2, log 17, log 37. -/
def Obligations.AllowanceIsTakenExpiresAndAges : Prop :=
  (∀ (s : State) (tag hi lo : Byte), s.CanTake ⟨0x05, tag, [hi, lo]⟩ →
    let n := hi.toNat * 256 + lo.toNat
    let v := min 40000 n
    let a := match s.sha.runnerCap with
      | some c => min v c
      | none => v
    let sha : Sha := { s.sha with
      hostValue := v, allowState := .fresh, age := 0, inUse := v, validityTimer := some 10000, effective := a }
    ∃ t, exec (.allowance tag [hi, lo]) s = .next t ∧
      (t.sha.hostValue, t.sha.allowState, t.sha.age, t.sha.inUse, t.sha.validityTimer, t.sha.effective) =
        (v, .fresh, 0, v, some 10000, a) ∧
      portAfter s t 0x85 tag [if 40000 < n then 1 else 0] s.notices ∧
      (standing s ≤ a → t = (s.taken.setSha sha).replying 0x85 tag [if 40000 < n then 1 else 0])) ∧
  (∀ s : State,
    let u := min s.sha.hostValue 4000
    let a := match s.sha.runnerCap with
      | some c => min u c
      | none => u
    let raised : NoticeSet := { s.notices with allowanceExpired := joined s.notices.allowanceExpired u }
    (s.sha.validityTimer.isSome = true → ∃ t, exec .validityTimerExpiry s = .next t ∧
      (t.sha.hostValue, t.sha.allowState, t.sha.age, t.sha.inUse, t.sha.validityTimer, t.sha.effective) =
        (s.sha.hostValue, .expired, s.sha.age, u, none, a) ∧
      t.blp = { s.blp with notices := { raised with traceState := t.notices.traceState } } ∧
      (standing s ≤ a → t = (s.setSha { s.sha with
          allowState := .expired, inUse := u, validityTimer := none, effective := a }).setNotices raised)) ∧
    exec .allowanceAgeTick s = .next (s.setSha { s.sha with age := if s.sha.age < 65535 then s.sha.age + 1 else 65535 }))

/-- Shedding (R42, R43): after an ALLOWANCE below the standing commands, compressor and heaters fit what the blowers
leave of A, and no more is cut than that takes. Heaters: one step at a time, a zone losing one only when every zone
later in the service order holds none, until the sum fits or none remains. Compressor: where the sum is still above
A, max(0, A - B - H), 0 below 1500. Blowers: where B alone is above A, the lower deck first, no further than they fit
or the floor stages as they stand. The last share result shows the new figures and the shed mark. What was cut
reaches the sequencer and the drive (R94), the deck it lowered with its spin-up and after-run (R114, R115) and the
heater steps (R112). A shedding that cuts nothing leaves all else as it stands. The model's choices in it: log 1, log
14, log 15, log 19, log 33, log 37. -/
def Obligations.SheddingFitsAllowance : Prop :=
  ∀ (s t : State) (tag hi lo : Byte), s.CanTake ⟨0x05, tag, [hi, lo]⟩ →
    (∀ z, 0 < (s.zone z).granted → z ∈ s.sha.last.order) → s.sha.last.order.Nodup →
    exec (.allowance tag [hi, lo]) s = .next t → t.sha.effective < standing s →
    let n := hi.toNat * 256 + lo.toNat
    let a := t.sha.effective
    let b0 := blowerPower s.sha.blowers s.sha.stages
    let b := blowerPower t.sha.blowers t.sha.stages
    let heat := 500 * zoneSum fun z => (t.zone z).granted
    let kept : Bool := Zone.all.all fun z => decide ((t.zone z).granted = (s.zone z).granted)
    let uncut := t.sha.command = s.sha.command ∧ t.sha.stages = s.sha.stages ∧ kept
    t.sha.command + heat ≤ a - b ∧
    (∀ z, (t.zone z).granted ≤ (s.zone z).granted) ∧
    (∀ z w, s.sha.last.order.idxOf z < s.sha.last.order.idxOf w → (t.zone z).granted < (s.zone z).granted →
      (t.zone w).granted = 0) ∧
    (b0 + s.sha.command + heat ≤ a ∨ heat = 0) ∧ (¬kept → a < b0 + s.sha.command + heat + 500) ∧
    t.sha.command = (if a < b0 + s.sha.command + heat then (if a - b0 - heat < 1500 then 0 else a - b0 - heat)
      else s.sha.command) ∧
    (b0 ≤ a → t.sha.stages = s.sha.stages) ∧
    (a < b0 → stagesFit s a (fun d => floorOf s (s.deck d).afterRun d) s.sha.stages t.sha.stages) ∧
    (uncut → t = (s.taken.setSha { s.sha with
      hostValue := min 40000 n, allowState := .fresh, age := 0, inUse := min 40000 n, validityTimer := some 10000
      effective := a }).replying 0x85 tag [if 40000 < n then 1 else 0]) ∧
    (¬uncut → t.sha.last = { s.sha.last with
      a := a, b := b, pa := a - b, pe := t.sha.command, heaterPower := heat, shed := true
      zones := .ofFn fun z => { s.sha.last.zones.get z with grant := (t.zone z).granted } }) ∧
    (∀ z, t.zone z = { s.zone z with granted := (t.zone z).granted }) ∧
    (let pe := t.sha.command
     let g := if pe ≠ s.sha.command ∧ s.psq.state = .run then eevFor s.psq.mode pe else s.psq.eevTarget
     let u := if pe = s.sha.command then s else powerHanded s pe
     t.psq = { s.psq with command := if pe = s.sha.command then s.psq.command else pe, eevTarget := g } ∧
     t.stepper .eev = eevHanded (s.stepper .eev) s.psq.eevTarget g ∧ t.dln = u.dln ∧ t.driveOut = u.driveOut) ∧
    (∀ d : Deck,
      let r := s.deck d
      let c := t.sha.stages.get d
      let lowered := c < s.sha.stages.get d
      let n := if 0 < c then c else if 0 < r.stage ∧ (r.afterRun.isSome = true ∨ r.idleCount < 9) then 1 else 0
      let u := if lowered then deckMoved r n else r
      let on := if lowered ∧ n = 0 then 0 else deckOn d s.act.stepsOn.get
      let x := if kept then u.afterRun else afterRunOf on (deckOn d t.act.stepsOn.get) u.afterRun
      t.deck d = { u with afterRun := x } ∧
      ∀ z ∈ deckZones d, t.act.stepsOn.get z = (
        if kept then (if lowered ∧ n = 0 then 0 else s.act.stepsOn.get z)
        else if u.running = false ∨ u.cutTimer.isSome = true ∨ u.supply = .lost then 0 else (t.zone z).granted)) ∧
    ∀ z, t.act.relays.get z = (if kept then s.act.relays.get z else outputsOf t z)

/-- Direction and total need of a pass (R29, R31): H and C over the REGULATE zones move the direction and its two
counts as R29 states; the new direction holds for the pass, whose total need is that of its served need zones; the
DIRECTION IS condition tests it. -/
def Obligations.PassDirectionAndNeed : Prop :=
  ∀ s t : State, s.Calm → exec .controlPeriodExpiry s = .next t →
    let duty (f : Int → Int) : Nat := zoneSum fun z =>
      if (t.zone z).mode = .regulate then (t.zone z).weight * (f (t.zone z).demand).toNat else 0
    let h := duty id
    let c := duty (-·)
    let quiet := if h < 300 ∧ c < 300 then s.sha.idleCount + 1 else 0
    let flip (own other : Nat) := if own + 1500 < other then s.sha.flipCount + 1 else 0
    let works (d e : Direction) (f : Nat) : Direction × Nat × Nat :=
      if 9 ≤ quiet then (.idle, 0, 0) else if 5 ≤ f then (e, 0, 0) else (d, quiet, f)
    (t.sha.direction, t.sha.idleCount, t.sha.flipCount) = (match s.sha.direction with
      | .idle => if 800 ≤ h ∧ c ≤ h then (.heat, 0, 0) else if 800 ≤ c ∧ h < c then (.cool, 0, 0) else (.idle, 0, 0)
      | .heat => works .heat .cool (flip h c)
      | .cool => works .cool .heat (flip c h)) ∧
    t.sha.last.direction = t.sha.direction ∧
    (∀ d, testCond (.directionIs d) t = (t, decide (t.sha.direction = d))) ∧
    t.sha.last.need = zoneSum fun z =>
      let r := t.zone z
      if r.mode = .regulate ∧ r.flapUsable = true ∧
        ((t.sha.direction = .heat ∧ 0 < r.demand) ∨ (t.sha.direction = .cool ∧ r.demand < 0))
      then r.weight * r.demand.natAbs else 0

/-- The COP at a temperature (R33): outside the table the nearer end row's, between two rows interpolated, the
division truncated toward zero. -/
def Obligations.CopIsInterpolated : Prop :=
  ∀ (perf : PerfRows PerfRow) (column : PerfRow → Nat) (t : Int),
    let ix : Nat → PerfRow := fun i => ((PerfIx.at i).map perf.get).getD perf.r6
    (∀ i, i < 5 → (ix i).temp < (ix (i + 1)).temp) →
    (t ≤ perf.r1.temp → copAt perf column t = column perf.r1) ∧
    (perf.r6.temp ≤ t → copAt perf column t = column perf.r6) ∧
    ∀ i, i < 5 → (ix i).temp ≤ t → t < (ix (i + 1)).temp →
      ((copAt perf column t : Nat) : Int) = column (ix i) +
        (((column (ix (i + 1)) : Int) - column (ix i)) * (t - (ix i).temp)).tdiv ((ix (i + 1)).temp - (ix i).temp)

/-- Step 4 of a pass. Compressor command (R34): 0 without capacity; with it the least of the need's power, Pa, 15 000
and the ramp, lifted to 1500 or dropped to 0 below 1500; Qd is what it yields; it lies in 0 or 1500..15 000 and never
exceeds Pa. Starved count, starvation hold and wanted mode (R30, R35). -/
def Obligations.PassCommandStarvationAndWantedMode : Prop :=
  (∀ s t : State, s.Calm → exec .controlPeriodExpiry s = .next t →
    let r := t.sha.last
    let available := s.psq.state = .run ∧ ((s.psq.mode = some .heat ∧ t.sha.direction = .heat) ∨
      ((s.psq.mode = some .cool ∨ s.psq.mode = some .dehum) ∧ t.sha.direction = .cool))
    let cop := copAt s.sha.perf (if t.sha.direction = .heat then PerfRow.heating else PerfRow.cooling)
      (s.sha.outdoor.getD 0)
    let need := (r.need * 100 + (cop - 1)) / cop
    let p := min (min need r.pa) (min 15000 (s.sha.command + 1500))
    t.sha.command = r.pe ∧ r.pa = r.a - r.b ∧
    (¬available → r.pe = 0 ∧ r.qd = 0) ∧
    (available → r.pe = (if p = 0 ∨ 1500 ≤ p then p else if 0 < need ∧ 1500 ≤ r.pa then 1500 else 0) ∧
      r.qd = r.pe * cop / 100) ∧
    (r.pe = 0 ∨ (1500 ≤ r.pe ∧ r.pe ≤ 15000)) ∧ r.pe ≤ r.pa) ∧
  (∀ s t : State, s.Calm → exec .controlPeriodExpiry s = .next t →
    let r := t.sha.last
    let starved := 0 < r.need ∧ r.pa < 1500
    let count := if starved ∧ s.psq.state = .run then min 5 (s.sha.starvedCount + 1) else 0
    let hold := starved ∧ (s.sha.starvationHold = true ∨ count = 5)
    let wanted : WantedMode :=
      if hold then .idle
      else match t.sha.direction with
        | .idle => .idle
        | .heat => .heat
        | .cool => if t.aqu.humidity = .dryNeeded then .dehum else .cool
    t.sha.starvedCount = count ∧ (t.sha.starvationHold = true ↔ hold) ∧ (starved → r.pe = 0) ∧
    r.starvedCount = count ∧ r.hold = t.sha.starvationHold ∧ r.wanted = wanted ∧ t.psq.wanted = wanted)

/-- The shares, heater steps and service order of a pass (R36 to R38, R40). D, the lower of Qd and N, goes to the
served need zones: floor(q × D / N) each, the rest to the neediest, the earlier in table order among equals; each
zone's shortfall by the table of R36, those of the need zones adding to Σ q - D. Exactly the admitted zones are
served, a boosted E first, then by shortfall, then in table order, each granted min(k, floor(left / 500), previous
grant + 1); no other zone is granted a step. Compressor and heaters fit Pa; shares, shortfalls and grants stand in
the zone records as in the last share result, whose shed mark is clear. The model's choices in it: log 23. -/
def Obligations.PassFitsAllowance : Prop :=
  ∀ s t : State, s.Calm → exec .controlPeriodExpiry s = .next t →
    let r := t.sha.last
    let d := t.sha.direction
    let cap := min r.qd r.need
    let share (z : Zone) : Nat := (r.zones.get z).share
    let short (z : Zone) : Int := (r.zones.get z).shortfall
    let grant (z : Zone) : Nat := (r.zones.get z).grant
    let calls (z : Zone) : Bool := decide ((t.zone z).mode = .regulate ∧ 0 < (t.zone z).demand)
    let needy (z : Zone) : Bool :=
      decide ((d = .heat ∧ calls z = true) ∨ (d = .cool ∧ (t.zone z).mode = .regulate ∧ (t.zone z).demand < 0))
    let q (z : Zone) : Nat := if needy z then (t.zone z).weight * (t.zone z).demand.natAbs else 0
    let served (z : Zone) : Bool := needy z && (t.zone z).flapUsable
    let floored (z : Zone) : Nat := if served z then q z * cap / r.need else 0
    let neediest (z : Zone) : Prop := served z = true ∧ ∀ y, served y = true → q y < q z ∨ (q y = q z ∧ z.pos ≤ y.pos)
    let delivering : Bool :=
      decide (s.psq.state = .run ∧ (s.psq.mode = some .heat ∨ s.psq.mode = some .cool ∨ s.psq.mode = some .dehum))
    let boosted : Bool := (t.door .d1).isOpen && decide ((t.zone .e).mode = .regulate ∧ d = .heat)
    let byPlant (z : Zone) : Bool := if delivering then (match d with
        | .heat => needy z
        | .cool => decide (t.aqu.humidity = .dryNeeded) && calls z
        | .idle => false) else calls z
    let admitted (z : Zone) : Bool := (byPlant z || (decide (z = .e) && boosted)) &&
      decide ((s.deck (zoneDeck z)).running = true ∧ (s.deck (zoneDeck z)).cutTimer = none ∧
        (s.deck (zoneDeck z)).supply ≠ .lost)
    (zoneSum share = cap ∧ (∀ z, neediest z → share z = floored z + (cap - zoneSum floored)) ∧
      ∀ z, ¬neediest z → share z = floored z) ∧
    ((∀ z, short z = if served z then (q z : Int) - share z else if needy z then (q z : Int)
        else if admitted z then (t.zone z).weight * max 0 (t.zone z).demand else 0) ∧
      (zoneSum fun z => if needy z then short z else 0) = ((zoneSum q : Nat) : Int) - cap ∧
      r.totalShortfall = zoneSum short) ∧
    (r.order.Nodup ∧ (∀ z, z ∈ r.order ↔ admitted z = true) ∧
      (boosted = true → admitted .e = true → r.order.head? = some .e) ∧
      (∀ y z, z ∈ r.order → r.order.idxOf y < r.order.idxOf z → (y = .e ∧ boosted = true) ∨ short z < short y ∨
        (short z = short y ∧ y.pos < z.pos)) ∧
      (∀ z, admitted z = false → grant z = 0) ∧
      ∀ z, z ∈ r.order →
        let left := (r.pa - r.pe) - 500 * ((r.order.take (r.order.idxOf z)).map grant).sum
        let wants := if z = .e ∧ boosted = true then (s.zone z).kmax
          else min (s.zone z).kmax (((short z).toNat + 499) / 500)
        grant z = min wants (min (left / 500) ((s.zone z).granted + 1))) ∧
    r.pe + r.heaterPower ≤ r.pa ∧ r.heaterPower = 500 * zoneSum grant ∧
    r.a = s.sha.effective ∧ r.b = blowerPower s.sha.blowers r.stages ∧ t.sha.stages = r.stages ∧ r.time = s.time ∧
    r.shed = false ∧
    ∀ z, grant z ≤ (s.zone z).kmax ∧ grant z ≤ (s.zone z).granted + 1 ∧
      (t.zone z).share = share z ∧ (t.zone z).shortfall = short z ∧ (t.zone z).granted = grant z

/-- CONFIG WRITE of the performance table, the blower stages, the plant settings, the step times and the channel
conversion (R32, R44, R62, R101, R122): every value is clamped to its range, or a step time rounded to the nearest of
5, 10, 20 and 40, the longer of two equally near; a performance table whose temperatures do not rise is refused with
BAD_TABLE; nothing else changes. The model's choices in it: log 1. -/
def Obligations.ConfigWriteReplacesUnitTables : Prop :=
  (∀ (s : State) (tag : Byte) (p : List Byte),
    let signed (n : Nat) : Int := if n < 32768 then (n : Int) else (n : Int) - 65536
    let temp (i : PerfIx) : Int := signed (field p (6 * i.pos))
    let row (i : PerfIx) : PerfRow := ⟨max (-400) (min 850 (temp i)), max 100 (min 600 (field p (6 * i.pos + 2))),
      max 100 (min 600 (field p (6 * i.pos + 4)))⟩
    let rises := ∀ i j : PerfIx, i.pos + 1 = j.pos → (row i).temp < (row j).temp
    let exact (i : PerfIx) : Bool := decide (row i = ⟨temp i, field p (6 * i.pos + 2), field p (6 * i.pos + 4)⟩)
    let stage (i : BlowerIx) : BlowerRow := ⟨min 3000 (field p (4 * i.pos)), min 2000 (field p (4 * i.pos + 2))⟩
    (p.length = 36 → s.CanTake ⟨0x07, tag, 5 :: p⟩ →
      (rises → exec (.configWritePerformanceTable tag (5 :: p)) s =
        .next ((s.taken.setSha { s.sha with perf := .ofFn row }).replying 0x87 tag [if PerfIx.all.all exact then 0 else 1])) ∧
      (¬rises → exec (.configWritePerformanceTable tag (5 :: p)) s = .next (s.taken.replying 0x87 tag [5]))) ∧
    (p.length = 16 → s.CanTake ⟨0x07, tag, 6 :: p⟩ →
      exec (.configWriteBlowerStageTable tag (6 :: p)) s =
        .next ((s.taken.setSha { s.sha with blowers := .ofFn stage }).replying 0x87 tag
          [if BlowerIx.all.all fun i => decide (stage i = ⟨field p (4 * i.pos), field p (4 * i.pos + 2)⟩) then 0 else 1]))) ∧
  (∀ (s : State) (tag : Byte) (p : List Byte),
    let into (lo hi n : Nat) : Nat := max lo (min hi n)
    let settings : PlantSettings := ⟨into 30 180 (field p 0), into 150 400 (field p 2), into 0 100 (field p 4),
      into 10 100 (field p 6), into 50 250 (field p 8)⟩
    let x (n : Stepper) : Nat := (p.getD n.pos 0).toNat
    let far (a b : Nat) : Nat := (a - b) + (b - a)
    let nearest (v k : Nat) : Prop := k ∈ [5, 10, 20, 40] ∧
      ∀ j ∈ [5, 10, 20, 40], far v k < far v j ∨ (far v k = far v j ∧ j ≤ k)
    let signed (n : Nat) : Int := if n < 32768 then (n : Int) else (n : Int) - 65536
    let offset (c : Channel) : Int := max (-5000) (min 5000 (signed (field p (4 * c.pos))))
    let gain (c : Channel) : Nat := into 1 20000 (field p (4 * c.pos + 2))
    let kept (c : Channel) : Bool := decide (offset c = signed (field p (4 * c.pos)) ∧ gain c = field p (4 * c.pos + 2))
    (p.length = 10 → s.CanTake ⟨0x07, tag, 7 :: p⟩ →
      exec (.configWritePlantSettings tag (7 :: p)) s =
        .next ((s.taken.setPsq { s.psq with settings := settings }).replying 0x87 tag
          [if settings = ⟨field p 0, field p 2, field p 4, field p 6, field p 8⟩ then 0 else 1])) ∧
    (p.length = 8 → s.CanTake ⟨0x07, tag, 8 :: p⟩ →
      ∃ k : Stepper → Nat, (∀ n, nearest (x n) (k n)) ∧
        exec (.configWriteStepTimes tag (8 :: p)) s =
          .next ((s.taken.setAct { s.act with
              steppers := .ofFn fun n => { s.stepper n with stepTime := k n } }).replying 0x87 tag
            [if Stepper.all.all fun n => decide (k n = x n) then 0 else 1])) ∧
    (p.length = 64 → s.CanTake ⟨0x07, tag, 9 :: p⟩ →
      exec (.configWriteChannelConversion tag (9 :: p)) s =
        .next ((s.taken.setSsc (.ofFn fun c => { s.channel c with offset := offset c, gain := gain c })).replying 0x87
          tag [if Channel.all.all kept then 0 else 1])))

/-! ## Air Quality Unit (03) -/

/-- The base fraction of the fresh air (R48), from the occupancies of a state. -/
def Sys2Proof.Spec.baseFraction (s : State) (a : Aqu) : Nat :=
  let people := zoneSum fun z => (s.zone z).occupancy
  if people = 0 then a.policyMin
  else if a.supply = 0 then 1000
  else max a.policyMin (min 1000 (people * a.rate * 1000 / a.supply))

/-- The unit with fresh fraction and damper target decided by R48 and R50 from the occupancies of a state. -/
def Sys2Proof.Spec.airDecided (s : State) (a : Aqu) : Aqu :=
  let phi := min 1000 (baseFraction s a + a.boost)
  { a with phi := phi, damper := if a.purgeActive then 400 else if a.holdActive then 0 else phi * 400 / 1000 }

/-- What a decision of the damper target between periods leaves (R50, R102): the unit as given; a target that differs
from the one held reaches FAD; a verify that FAD has due may begin and leave a trace record and its notice; nothing else
changes but what the reply's port holds. -/
def Sys2Proof.Spec.damperMoves (s t : State) (a : Aqu) : Prop :=
  t.aqu = a ∧
  t = ((((s.setAqu a).setStepper .fad (t.stepper .fad)).setTrq t.trq).setBlp t.blp) ∧
  t.stepper .fad = (if a.damper = s.aqu.damper then s.stepper .fad else targetTaken (s.stepper .fad) (min 400 a.damper)) ∧
  (a.damper = s.aqu.damper ∨ (s.stepper .fad).verifyDue = false → t.trq = s.trq)

/-- AIR POLICY SET MINIMUM and SET RATE (R51): the value is clamped and written, fresh fraction and damper target are
decided at once; an action above 3 is refused with BAD_INDEX by all four rows. The unit's period at a pass (R47):
supply airflow of the commanded stages, humidity state and its counts (R55; NORMAL when the direction leaves COOL,
R56), CO2 boost (R49), fresh fraction and damper target, then a PURGE counts the period and ends on its count, DONE,
or on a pending ABORT AT-BOUNDARY, ABORTED, with its periods run as the detail (R58, R174). The model's choices in
it: log 1, log 17, log 19, log 26. -/
def Obligations.AirPolicyWritesDecideDamper : Prop :=
  (∀ (s : State) (tag hi lo : Byte), s.aqu.policyMin ≤ 1000 →
    let n := hi.toNat * 256 + lo.toNat
    (s.CanTake ⟨0x09, tag, [0, hi, lo]⟩ → ∃ t, exec (.airPolicySetMinimum tag [0, hi, lo]) s = .next t ∧
      damperMoves s t (airDecided s { s.aqu with policyMin := min 1000 n }) ∧
      portAfter s t 0x89 tag [if n ≤ 1000 then 0 else 1] s.notices) ∧
    (s.CanTake ⟨0x09, tag, [1, hi, lo]⟩ → ∃ t, exec (.airPolicySetRate tag [1, hi, lo]) s = .next t ∧
      damperMoves s t (airDecided s { s.aqu with rate := max 4 (min 15 n) }) ∧
      portAfter s t 0x89 tag [if 4 ≤ n ∧ n ≤ 15 then 0 else 1] s.notices) ∧
    (∀ action : Byte, 3 < action.toNat → s.CanTake ⟨0x09, tag, [action, hi, lo]⟩ →
      let p := [action, hi, lo]
      ∀ c ∈ [Instr.airPolicySetMinimum tag p, .airPolicySetRate tag p, .airPolicyStartHold tag p, .airPolicyEndHold tag p],
        exec c s = .next (s.taken.replying 0x89 tag [4]))) ∧
  (∀ s t : State, s.Calm → s.aqu.policyMin ≤ 1000 → exec .controlPeriodExpiry s = .next t →
    let a := s.aqu
    let cool := s.sha.direction = .cool
    let rh (f : Int → Bool) : Bool := match a.rh.value with
      | some v => decide (a.rh.quality ≠ .lost) && f v
      | none => false
    let dry := if rh (fun v => decide (650 ≤ v)) = true ∧ cool then a.dryCount + 1 else 0
    let clear := if rh (fun v => decide (v ≤ 550)) = true then a.normalCount + 1 else 0
    let counted : HumidityState × Nat × Nat := match a.humidity with
      | .normal => if 15 ≤ dry then (.dryNeeded, 0, 0) else (.normal, dry, a.normalCount)
      | .dryNeeded => if 15 ≤ clear then (.normal, 0, 0) else (.dryNeeded, a.dryCount, clear)
    let h := if cool ∧ t.sha.direction ≠ .cool then (.normal, 0, 0) else counted
    let supply := supplyAirflow s.sha.blowers t.sha.stages
    let base := baseFraction s { a with supply := supply }
    let co2 (c : Reading) (f : Int → Bool) (absent : Bool) : Bool :=
      if c.quality = .lost then absent else match c.value with
        | some v => f v
        | none => absent
    let high := co2 a.co2.upper (fun v => decide (1200 < v)) false || co2 a.co2.lower (fun v => decide (1200 < v)) false
    let low := co2 a.co2.upper (fun v => decide (v < 1000)) true && co2 a.co2.lower (fun v => decide (v < 1000)) true
    let boost := if high then (if base + a.boost < 1000 then min 1000 (a.boost + 100) else a.boost)
      else if low then a.boost - 100 else a.boost
    let u := airDecided s { a with
      supply := supply, boost := boost, humidity := h.1, dryCount := h.2.1, normalCount := h.2.2 }
    let n := a.periodsRun + 1
    let bounded : Bool := match s.ops.slot with
      | some op => op.abortPending
      | none => false
    let ends := a.purgeCount ≤ n ∨ bounded = true
    let e : EndState := if a.purgeCount ≤ n then .done else .aborted
    (a.purgeActive = false → t.aqu = u) ∧
    (a.purgeActive = true →
      (¬ends → t.aqu = { u with periodsRun := n }) ∧
      (ends → t.aqu = { u with periodsRun := n, purgeActive := false } ∧
        ∀ op, s.ops.slot = some op → ∀ k, op.work = .purge k →
          t.ops = ⟨none, ⟨some .purge, some op.source, .ended e, .periods n⟩⟩ ∧
          t.notices.operationEnd = joined s.notices.operationEnd ⟨.purge, op.source, e, .periods n⟩)))

/-- Seconds since the first start of the hold (R53), from the 32-bit time base in units of 100 ms. -/
def Sys2Proof.Spec.holdSeconds (s : State) : Nat :=
  ((s.time + (2 ^ 32 - s.aqu.holdFirstStart % 2 ^ 32)) % 2 ^ 32) / 10

/-- Recirculation hold (R52 to R54). START HOLD starts a hold with its limit clamped to 1..600 s and the damper
closes; a hold that is ACTIVE is renewed, ending no later than 600 s after its first start, and nothing else changes;
during a PURGE no hold starts. END HOLD and the timer's expiry end an ACTIVE hold, RELEASED or by LIMIT, with one
RECIRC HOLD END notice carrying cause and length in whole seconds, truncated (the model's choice, log 38), and the
damper target is decided at once; without a hold END HOLD changes nothing. The model's choices in it: log 1, log 2,
log 17, log 19, log 25, log 38. -/
def Obligations.HoldStartsRenewsAndEnds : Prop :=
  (∀ (s : State) (tag hi lo : Byte), s.aqu.policyMin ≤ 1000 → s.CanTake ⟨0x09, tag, [2, hi, lo]⟩ →
    let n := hi.toNat * 256 + lo.toNat
    let l := max 1 (min 600 n)
    let code : Byte := if 1 ≤ n ∧ n ≤ 600 then 0 else 1
    (s.aqu.purgeActive = true →
      exec (.airPolicyStartHold tag [2, hi, lo]) s = .next (s.taken.replying 0x89 tag [code])) ∧
    (s.aqu.purgeActive = false → s.aqu.holdActive = true →
      exec (.airPolicyStartHold tag [2, hi, lo]) s = .next ((s.taken.setAqu { s.aqu with
        holdTimer := some (1000 * max 1 (min l (600 - holdSeconds s))) }).replying 0x89 tag [code])) ∧
    (s.aqu.purgeActive = false → s.aqu.holdActive = false →
      ∃ t, exec (.airPolicyStartHold tag [2, hi, lo]) s = .next t ∧
        damperMoves s t (airDecided s { s.aqu with
          holdActive := true, holdFirstStart := s.time, holdTimer := some (1000 * l) }) ∧
        t.aqu.damper = 0 ∧ portAfter s t 0x89 tag [code] s.notices)) ∧
  (∀ (s : State) (tag hi lo : Byte), s.aqu.policyMin ≤ 1000 →
    let ended (c : HoldEnd) : Aqu :=
      airDecided s { s.aqu with holdActive := false, holdTimer := none, holdEnd := some c }
    let notices (c : HoldEnd) : NoticeSet :=
      { s.notices with recircHoldEnd := joined s.notices.recircHoldEnd ⟨c, holdSeconds s⟩ }
    (s.CanTake ⟨0x09, tag, [3, hi, lo]⟩ →
      (s.aqu.holdActive = false →
        exec (.airPolicyEndHold tag [3, hi, lo]) s = .next (s.taken.replying 0x89 tag [0])) ∧
      (s.aqu.holdActive = true → ∃ t, exec (.airPolicyEndHold tag [3, hi, lo]) s = .next t ∧
        damperMoves s t (ended .released) ∧ portAfter s t 0x89 tag [0] (notices .released))) ∧
    (s.aqu.holdActive = true → s.aqu.holdTimer.isSome = true → ∃ t, exec .holdTimerExpiry s = .next t ∧
      damperMoves s t (ended .limit) ∧
      t.blp = { s.blp with notices := { notices .limit with traceState := t.notices.traceState } }))

/-! ## Plant Sequencer (04) -/

/-- Anti-short-cycle and dwell expiry (R69, R72), the trip timer's expiry (R80) and CLEAR LOCKOUT (R83) are decision
events: each is answered with the start decision of R65 on the state in which it leaves the plant; CLEAR LOCKOUT
outside LOCKOUT changes nothing. Settle expiry (R70): the start goes ahead on the side just reached, SHIFT is entered
again for the other side, a start not wanted or blocked leaves the plant STOPPED with the valve where it was shifted.
The model's choices in it: log 1, log 2, log 20. -/
def Obligations.DecisionEventsDecideStart : Prop :=
  (∀ (s : State) (tag : Byte), s.Calm →
    (s.psq.antiShortCycle.isSome = true → ∃ t, exec .antiShortCycleExpiry s = .next t ∧
      afterDecision (s.setPsq { s.psq with antiShortCycle := none }) t) ∧
    ((∃ ms, s.psq.dwell = .running ms) → ∃ t, exec .dwellTimerExpiry s = .next t ∧
      afterDecision (s.setPsq { s.psq with dwell := .expired }) t) ∧
    (s.psq.state = .tripped → s.psq.tripTimer.isSome = true → ∃ t, exec .tripTimerExpiry s = .next t ∧
      afterDecision (s.setPsq { s.psq with state := .stopped, tripTimer := none }) t) ∧
    (s.CanTake ⟨0x1B, tag, []⟩ →
      (s.psq.state = .lockout → ∃ t, exec (.clearLockout tag []) s = .next t ∧ t.blp.reply = some ⟨0x9B, tag, [0]⟩ ∧
        afterDecision (s.setPsq { s.psq with state := .stopped, tripHistory := [] }) t) ∧
      (s.psq.state ≠ .lockout → exec (.clearLockout tag []) s = .next (s.taken.replying 0x9B tag [0])))) ∧
  (∀ s : State, s.Calm → s.psq.state = .shift → s.psq.settleTimer.isSome = true →
    s.psq.defrostMark = .none ∨ s.psq.eevFaulted = false →
    let s0 := s.setPsq { s.psq with settleTimer := none }
    ∃ t, exec .settleTimerExpiry s = .next t ∧ plantOnly s t ∧
      match startsFor s.psq with
      | none => t.psq = { s0.psq with state := .stopped, startPending := false } ∧ t.dln = s.dln ∧ t.driveOut = s.driveOut
      | some m =>
        (s.psq.valve ≠ m.side → shiftsTo s0 t m.side) ∧
        (s.psq.valve = m.side → ¬blocked s.psq → startsIn s0 t m) ∧
        (s.psq.valve = m.side → blocked s.psq → t.psq = { s0.psq with state := .stopped, startPending := true } ∧
          t.dln = s.dln ∧ t.driveOut = s.driveOut))

/-- A DEFROST run ends on its timer with TIMEOUT and frost index 500 (R75), and a DEFROST operation on an ABORT with
ABORTED and the frost index kept (R75, R76), NOW and AT-BOUNDARY alike: the plant enters RAMPDOWN and stops the
drive. The model's choices in it: log 1, log 2, log 20. -/
def Obligations.DefrostRunEnds : Prop :=
  ∀ (s : State) (tag : Byte), s.Calm → s.psq.state = .run → s.psq.mode = some .defrost → s.psq.defrostMark ≠ .none →
    (s.psq.defrostTimer.isSome = true → ∃ t, exec .defrostTimerExpiry s = .next t ∧ plantOnly s t ∧ stopSent s t ∧
      t.psq = rampedDown (defrostOver s.psq .timeout 500) ∧ defrostSlot s t .done .timeout) ∧
    (∀ src ab n, s.ops.slot = some ⟨.defrost, src, ab, n⟩ →
      (s.CanTake ⟨0x12, tag, [0]⟩ → ∃ t, exec (.abortNow tag [0]) s = .next t ∧ plantOnly s t ∧ stopSent s t ∧
        t.psq = rampedDown (defrostOver s.psq .aborted s.psq.frost) ∧ defrostSlot s t .aborted .aborted ∧
        t.blp.reply = some ⟨0x92, tag, [0]⟩) ∧
      (s.CanTake ⟨0x12, tag, [1]⟩ → ∃ t, exec (.abortAtBoundary tag [1]) s = .next t ∧ plantOnly s t ∧ stopSent s t ∧
        t.psq = rampedDown (defrostOver s.psq .aborted s.psq.frost) ∧ defrostSlot s t .aborted .aborted ∧
        t.blp.reply = some ⟨0x92, tag, [0]⟩))

/-- Trips in RUN on the Drive Line's reports (R78, R80 to R82, R95, R96): a silent drive, a fault record with its
code, a STOPPED record nobody asked for, after which STOP goes out and the link is STOPPING (R97). The sequencer's
period in RUN (R63), in this order: a command that differs from the power sent goes out as POWER (R94), the low
suction count and its trip at 5 (R79), the verify window and MODE_NOT_CONFIRMED at its end (R71), frost index and
heat run count in HEAT and the automatic defrost (R73, R74, Table 4-6), then the wanted mode (R68) and the EEV target
(R84); a trip and an entry to RAMPDOWN stop the drive. In any other state the wanted mode is recorded and the start
decision taken (R65). The model's choices in it: log 2, log 16, log 19, log 20, log 25. -/
def Obligations.DriveReportsTripThePlant : Prop :=
  (∀ s : State, s.Calm → s.psq.state = .run → s.dln.link = .running →
    (∃ t, exec .silenceTimerExpiry s = .next t ∧ plantOnly s t ∧ stopSent s t ∧ tripsWith s t .driveSilent 0) ∧
    (∀ code, 1 ≤ code → code ≤ 255 → ∃ t, exec (.driveFaultRecord code) s = .next t ∧ plantOnly s t ∧
      stopSent (s.setDln { s.dln with lastFault := some ⟨code, s.time⟩ }) t ∧ tripsWith s t .driveFault code) ∧
    (∃ t, exec .driveStopped s = .next t ∧ plantOnly s t ∧ tripsWith s t .driveFault 0 ∧
      stopSent (s.setDln { s.dln with
        link := .off, refreshTimer := none, silenceTimer := none, stopTimer := none, lastStop := .confirmed
        compressorRunning := false }) t)) ∧
  (∀ s t : State, s.Calm → exec .controlPeriodExpiry s = .next t →
    let w := t.sha.last.wanted
    let pe := t.sha.last.pe
    let x := s.psq
    let handed := powerHanded s pe
    let low := match x.pSuc.value with
      | some v => if v < x.settings.suctionLimit then x.lowSuctionCount + 1 else 0
      | none => 0
    let left := x.verifyCount - 1
    let icing : Bool := match x.coil.value with
      | some v => decide (x.coil.quality ≠ .lost ∧ v < 0)
      | none => false
    let add := match x.outdoor with
      | none => 8
      | some v => if v ≤ -150 then 2 else if v ≤ -51 then 4 else if v ≤ 50 then 8 else 3
    let heat := x.mode = some .heat
    let frost := if heat ∧ icing = true then min 1000 (x.frost + add) else x.frost
    let count := if heat then (if x.heatRunCount < 65535 then x.heatRunCount + 1 else 65535) else x.heatRunCount
    let p : Psq := { x with
      wanted := w, command := pe, lowSuctionCount := low, frost := frost, heatRunCount := count
      verifyCount := if x.verifyWindow = .closed then x.verifyCount else left
      verifyWindow := if x.verifyWindow = .satisfied ∧ left = 0 then .closed else x.verifyWindow }
    let runs (m : RunMode) : Prop :=
      t.psq = { p with
        mode := some m, eevTarget := eevFor (some m) pe, fanOn := if x.mode = some m then x.fanOn else true } ∧
      t.dln = handed.dln ∧ t.driveOut = handed.driveOut ∧
      (x.mode = some m → t.stepper .eev = eevHanded (s.stepper .eev) x.eevTarget (eevFor (some m) pe))
    (x.state = .run → ∀ m, x.mode = some m →
      if 5 ≤ low then tripRecorded (s.setPsq { x with wanted := w }) t .lowSuction 0 ∧ stopSent handed t
      else if x.verifyWindow = .opened ∧ left = 0 then
        tripRecorded (s.setPsq { x with wanted := w, verifyCount := 0 }) t .modeNotConfirmed 0 ∧ stopSent handed t
      else if heat ∧ frost = 1000 ∧ 300 ≤ count then
        t.psq = rampedDown { p with defrostMark := .auto } ∧ stopSent handed t
      else if m = .defrost ∨ w.mode = some m then runs m
      else if m = .cool ∧ w = .dehum then runs .dehum
      else if m = .dehum ∧ w = .cool then runs .cool
      else t.psq = rampedDown p ∧ stopSent handed t) ∧
    (x.state ≠ .run → decisionTaken (s.setPsq { x with wanted := w, command := pe }) t))

/-! ## Drive Line (05) -/

/-- START-ACK (R90): taken in STARTING-ACK it stops the ack timer, starts the running timer at 5 s and makes the link
STARTING-RUN; in any other state it changes nothing, and an ack timer's expiry taken after it changes nothing. In
RETRY-WAIT the drive's STOPPED and START-ACK change nothing and a FAULT is recorded only; the retry timer's expiry
sends the next START (R93). The refresh timer's expiry in RUNNING repeats the power sent (R94). A STATUS is recorded
in any state and restarts the silence timer in RUNNING (R95). The model's choices in it: log 2. -/
def Obligations.DriveAckRetryRefreshAndStatus : Prop :=
  (∀ s : State,
    (s.dln.link = .startingAck → exec .driveStartAck s =
      .next (s.setDln { s.dln with ackTimer := none, runningTimer := some 5000, link := .startingRun })) ∧
    (s.dln.link ≠ .startingAck → exec .driveStartAck s = .next s) ∧
    (s.mail = .empty → s.dln.link ≠ .startingAck → exec .ackTimerExpiry s = .next s)) ∧
  (∀ s : State, s.mail = .empty →
    (s.dln.link = .retryWait →
      exec .driveStopped s = .next s ∧ exec .driveStartAck s = .next s ∧
      (∀ code, 1 ≤ code → code ≤ 255 →
        exec (.driveFaultRecord code) s = .next (s.setDln { s.dln with lastFault := some ⟨code, s.time⟩ })) ∧
      exec .retryTimerExpiry s = .next ((s.setDln { s.dln with
        retryTimer := none, attempts := s.dln.attempts + 1, powerSent := s.dln.initialPower, ackTimer := some 200
        link := .startingAck }).setDriveOut (s.driveOut ++ (DriveTx.start s.dln.initialPower).wire))) ∧
    (s.dln.link = .running → exec .refreshTimerExpiry s = .next ((s.setDln { s.dln with
      refreshTimer := some 500 }).setDriveOut (s.driveOut ++ (DriveTx.power s.dln.powerSent).wire))) ∧
    (∀ (speed power : Nat) (temp : Int), speed ≤ 65535 → power ≤ 65535 → -128 ≤ temp → temp ≤ 127 →
      exec (.driveStatus speed power temp) s = .next (s.setDln { s.dln with
        lastStatus := some ⟨speed, power, temp, s.time⟩
        silenceTimer := if s.dln.link = .running then some 2000 else s.dln.silenceTimer })))

/-- The link in STOPPING with its stop timer at 5 s and no other timer (R91, R92, R97). -/
def Sys2Proof.Spec.inStopping (d : Dln) : Dln :=
  { d with link := .stopping, ackTimer := none, runningTimer := none, retryTimer := none, refreshTimer := none
           silenceTimer := none, stopTimer := some 5000 }

/-- A start failed report (R67, R78): the trip DRIVE_START_FAILED in START, nothing in any other state. -/
def Sys2Proof.Spec.startFails (s t : State) : Prop :=
  plantOnly s t ∧ (s.psq.state = .start → tripsWith s t .driveStartFailed 0) ∧ (s.psq.state ≠ .start → t.psq = s.psq)

/-- A RUNNING record by link state (R91), with what the plant makes of the reports (R67, R80): in STARTING-RUN the
link is RUNNING and a plant in START enters RUN, where a wanted mode that differs by then is acted on at once: DEHUM
and COOL are exchanged, any other leads to RAMPDOWN, with STOP sent (R68). The model's choices in it: log 20, log 25. -/
def Obligations.RunningRecordByLinkState : Prop :=
  ∀ s : State, s.Calm →
    let d := { s.dln with compressorRunning := true }
    (s.dln.link = .startingRun →
      let up := { d with runningTimer := none, refreshTimer := some 500, silenceTimer := some 2000, link := .running }
      (s.psq.state ≠ .start → exec .driveRunning s = .next (s.setDln up)) ∧
      (s.psq.state = .start → ∀ m, s.psq.mode = some m → ∃ t, exec .driveRunning s = .next t ∧ plantOnly s t ∧
        let w := s.psq.wanted
        let p : Psq := { s.psq with state := .run, verifyWindow := .opened, verifyCount := 5 }
        let runs (k : RunMode) : Prop := t.dln = up ∧ t.driveOut = s.driveOut ∧
          t.psq = { p with mode := some k, fanOn := true, eevTarget := eevFor (some k) s.psq.command }
        if m = .defrost then t.dln = up ∧ t.driveOut = s.driveOut ∧ t.psq = { s.psq with
          state := .run, defrostTimer := some 600000, fanOn := false, eevTarget := eevFor (some .defrost) s.psq.command }
        else if w.mode = some m then runs m
        else if m = .cool ∧ w = .dehum then runs .dehum
        else if m = .dehum ∧ w = .cool then runs .cool
        else t.psq = rampedDown p ∧ stopSent (s.setDln up) t)) ∧
    (s.dln.link = .retryWait ∨ s.dln.link = .startingAck → ∃ t, exec .driveRunning s = .next t ∧
      t.dln = inStopping { d with failure := .lateRunning } ∧ t.driveOut = s.driveOut ++ DriveTx.stop.wire ∧ startFails s t) ∧
    (s.dln.link = .off → exec .driveRunning s =
      .next ((s.setDln (inStopping d)).setDriveOut (s.driveOut ++ DriveTx.stop.wire))) ∧
    (s.dln.link = .stopping → exec .driveRunning s = .next ((s.setDln d).setDriveOut (s.driveOut ++ DriveTx.stop.wire))) ∧
    (s.dln.link = .running → exec .driveRunning s = .next s)

/-- How a failed attempt leaves the line (R92), given the line with what the event records. -/
def Sys2Proof.Spec.attemptFails (s t : State) (d : Dln) (reason : FailureReason) : Prop :=
  (s.dln.attempts < 3 → t = (s.setDln { d with
    failure := reason, ackTimer := none, runningTimer := none, retryTimer := some 30000
    link := .retryWait }).setDriveOut (s.driveOut ++ DriveTx.stop.wire)) ∧
  (3 ≤ s.dln.attempts → t.dln = inStopping { d with failure := reason } ∧ t.driveOut = s.driveOut ++ DriveTx.stop.wire ∧
    startFails s t)

/-- A start attempt fails (R92) on the ack timer's expiry in STARTING-ACK, the running timer's in STARTING-RUN, and
on a FAULT or STOPPED record in either: STOP is sent; below three attempts the line waits 30 s, at the third the
request ends with start failed. The model's choices in it: log 2, log 20, log 25. -/
def Obligations.StartAttemptFails : Prop :=
  ∀ s : State, s.Calm →
    (s.dln.link = .startingAck → ∃ t, exec .ackTimerExpiry s = .next t ∧ attemptFails s t s.dln .noAck) ∧
    (s.dln.link = .startingRun → ∃ t, exec .runningTimerExpiry s = .next t ∧ attemptFails s t s.dln .noRunning) ∧
    (s.dln.link = .startingAck ∨ s.dln.link = .startingRun →
      (∀ code, 1 ≤ code → code ≤ 255 → ∃ t, exec (.driveFaultRecord code) s = .next t ∧
        attemptFails s t { s.dln with lastFault := some ⟨code, s.time⟩ } .fault) ∧
      ∃ t, exec .driveStopped s = .next t ∧ attemptFails s t s.dln .stopped)

/-- A stop ends (R98) on the drive's STOPPED record, or presumed on the stop timer's expiry: the link is OFF, the
anti-short-cycle timer restarts (R72), and RAMPDOWN goes to EQUALIZE with its dwell (R68, R69), or to STOPPED after a
warm restart (R86). A STOPPED record in OFF is ignored. The model's choices in it: log 2. -/
def Obligations.StopEndsConfirmedOrPresumed : Prop :=
  ∀ s : State, s.Calm → s.psq.state ≠ .run →
    let ends (t : State) (how : LastStop) : Prop :=
      let d : Dln := { s.dln with stopTimer := none, refreshTimer := none, silenceTimer := none, lastStop := how
                                  compressorRunning := false, link := .off }
      let p : Psq := { s.psq with antiShortCycle := some 180000 }
      (s.psq.state ≠ .rampdown → t = (s.setDln d).setPsq p) ∧
      (s.psq.state = .rampdown → s.psq.restartMark = false → plantOnly s t ∧ t.dln = d ∧ t.driveOut = s.driveOut ∧
        t.psq = { p with state := .equalize, dwell := .running (1000 * s.psq.settings.dwell), startPending := false }) ∧
      (s.psq.state = .rampdown → s.psq.restartMark = true → t.psq.restartMark = false ∧
        afterDecision ((s.setDln d).setPsq { p with state := .stopped, restartMark := false }) t)
    (s.dln.link = .stopping →
      (∃ t, exec .driveStopped s = .next t ∧ ends t .confirmed) ∧ (∃ t, exec .stopTimerExpiry s = .next t ∧ ends t .presumed)) ∧
    (s.dln.link = .off → exec .driveStopped s = .next s)

/-- A record of the drive whose kind is not in Table 5-3, whose length is not the one its kind requires, or whose
FAULT code is 0 is dropped and counted (R88, R183), and so is one whose check does not match; nothing else changes.
The model's choices in it: log 6, log 27. -/
def Obligations.BadDriveRecordsAreDropped : Prop :=
  ∀ (s : State) (k : Byte) (p : List Byte), s.mail = .empty → p.length ≤ 8 →
    let body := k :: BitVec.ofNat 8 p.length :: p
    let dropped := s.setDln { s.dln with errorCount := min 65535 (s.dln.errorCount + 1) }
    let known := (k = 0x11 ∧ p = []) ∨ (k = 0x12 ∧ p = []) ∨ (k = 0x13 ∧ p.length = 5) ∨
      (k = 0x14 ∧ p.length = 1 ∧ p ≠ [0]) ∨ (k = 0x15 ∧ p = [])
    s.dln.errorCount ≤ 65535 →
    (¬known → exec (.driveRecordDropped (wireOf body)) s = .next dropped) ∧
    ∀ c0 c1 : Byte, [c0, c1] ≠ checkBytes body →
      exec (.driveRecordDropped (startByte :: (body ++ [c0, c1]).flatMap escaped)) s = .next dropped

/-! ## Actuator Driver (06) -/

/-- A stepper's record after one seek step from a position (R103), before the question of an automatic verify. -/
def Sys2Proof.Spec.seekOnce (r : StepperRec) (p : Nat) : StepperRec :=
  let q := if p < r.target then p + 1 else p - 1
  let moved := if r.stepsMoved < 65535 then r.stepsMoved + 1 else 65535
  let r1 := { r with position := some q, stepsMoved := moved, verifyDue := r.verifyDue || decide (moved = 2000) }
  if q = r.target then { r1 with state := .idle, motion := .none, timer := .stopped }
  else { r1 with motion := if p < r.target then .up else .down, timer := .step r.stepTime }

/-- Seeking (R103, R104): an expiry of the step timer takes one step toward the target, and so does a reversal
pause's expiry; a pause that ends at the target leaves the stepper IDLE. With a verify due at the target an automatic
verify begins at once (R107); where the home switch is CLOSED it ends at once too, with its ACTUATOR record (R108).
Nothing but the stepper changes otherwise. The model's choices in it: log 2, log 19. -/
def Obligations.SeekingStepsTowardTarget : Prop :=
  ∀ (s : State) (n : Stepper) (p ms : Nat), s.mail = .empty → (s.stepper n).state = .seeking →
    (s.stepper n).position = some p →
    let r := s.stepper n
    let u := seekOnce r p
    let verified (x : StepperRec) : State :=
      let v := s.setStepper n (autoVerifies x r.target)
      match r.switch with
      | .opened => v
      | .closed => offer (.actuator n (if 4 < r.target then .slip else .verified) (some r.target) 0) v
    (p ≠ r.target → ¬(u.state = .idle ∧ u.verifyDue = true) →
      (r.timer = .step ms → exec (.seekStep n) s = .next (s.setStepper n u)) ∧
      (r.timer = .pause ms → exec (.reversalPauseExpiry n) s = .next (s.setStepper n u))) ∧
    (p ≠ r.target → u.state = .idle → u.verifyDue = true →
      (r.timer = .step ms → exec (.seekStep n) s = .next (verified u)) ∧
      (r.timer = .pause ms → exec (.reversalPauseExpiry n) s = .next (verified u))) ∧
    (p = r.target → r.timer = .pause ms →
      (r.verifyDue = false → exec (.reversalPauseExpiry n) s =
        .next (s.setStepper n { r with state := .idle, motion := .none, timer := .stopped })) ∧
      (r.verifyDue = true → exec (.reversalPauseExpiry n) s = .next (verified r)))

/-- Whether a stepper's users see it usable (R110): its zone's flap, the ventilation, the plant's EEV. -/
def Sys2Proof.Spec.usable (s : State) (n : Stepper) : Bool :=
  match n with
  | .fU1 => s.zrg.zones.u1.flapUsable
  | .fU2 => s.zrg.zones.u2.flapUsable
  | .fU3 => s.zrg.zones.u3.flapUsable
  | .fL1 => s.zrg.zones.l1.flapUsable
  | .fL2 => s.zrg.zones.l2.flapUsable
  | .fE => s.zrg.zones.e.flapUsable
  | .fad => decide (s.aqu.vent = .normal)
  | .eev => !s.psq.eevFaulted

/-- The last stepper of an operation's mask is done (R174): the operation ends DONE with an empty second mask, FAILED
otherwise, its masks in the detail; the slot is EMPTY and OPERATION END raised. Said where the stepper in hand is the
last of the mask. -/
def Sys2Proof.Spec.lastStepperEnds (s t : State) (n : Stepper) (first second : BitVec 8) : Prop :=
  match s.ops.slot with
  | some op => (op.work.kind = .home ∨ op.work.kind = .verify) → op.inHand = some n →
    (∀ m ∈ Stepper.all, n.pos < m.pos → op.work.mask.toNat.testBit m.pos = false) →
    let a := s.ops.status.detail.maskPair.1 ||| first
    let b := s.ops.status.detail.maskPair.2 ||| second
    let e : EndState := if b = 0 then .done else .failed
    t.ops = ⟨none, ⟨some op.work.kind, some op.source, .ended e, .masks a b⟩⟩ ∧
    t.notices.operationEnd = joined s.notices.operationEnd ⟨op.work.kind, op.source, e, .masks a b⟩
  | none => t.ops = s.ops

/-- The next stepper of the mask is handed over (R174) as R105 and R107 time its first step, said where its home switch
is OPEN and, for a VERIFY, its position known; an ABORT AT-BOUNDARY that is pending ends the operation instead (R175). -/
def Sys2Proof.Spec.nextStepper (s t : State) (n : Stepper) (first second : BitVec 8) : Prop :=
  ∀ op, s.ops.slot = some op → (op.work.kind = .home ∨ op.work.kind = .verify) → op.inHand = some n →
    ∀ m : Stepper, n.pos < m.pos → op.work.mask.toNat.testBit m.pos = true →
    (∀ k : Stepper, n.pos < k.pos → k.pos < m.pos → op.work.mask.toNat.testBit k.pos = false) →
    let a := s.ops.status.detail.maskPair.1 ||| first
    let b := s.ops.status.detail.maskPair.2 ||| second
    let u := { s.stepper m with count := 0, takenOver := false }
    let handed := t.ops = ⟨some { op with inHand := some m }, { s.ops.status with detail := .masks a b }⟩ ∧
      t.notices.operationEnd = s.notices.operationEnd
    (op.abortPending = true →
      t.ops = ⟨none, ⟨some op.work.kind, some op.source, .ended .aborted, .masks a b⟩⟩ ∧
      t.notices.operationEnd = joined s.notices.operationEnd ⟨op.work.kind, op.source, .aborted, .masks a b⟩) ∧
    (op.abortPending = false → u.switch = .opened →
      (op.work.kind = .home → handed ∧ t.stepper m = firstStepTimed { u with
        state := .homing, refKind := .home, limit := travel m + 40, position := none }) ∧
      (op.work.kind = .verify → u.state = .idle ∨ u.state = .seeking → ∀ p, u.position = some p →
        handed ∧ t.stepper m = firstStepTimed { u with
          state := .verifying, refKind := .operationVerify, prior := p, limit := p + 40 }))

/-- A stepper that enters FAULT (R106, R110): its record, the ACTUATOR FAULT notice, and its users told where it was
not faulted before; EEV's trips the plant in its compressor states (R78). -/
def Sys2Proof.Spec.faults (s t : State) (n : Stepper) (c : StepperFaultCause) : Prop :=
  let r := s.stepper n
  t.stepper n = { r with
    state := .fault, position := none, motion := .none, timer := .stopped, refKind := .none, faulted := true
    takenOver := false, target := (t.stepper n).target } ∧
  (n ≠ .eev → (t.stepper n).target = r.target) ∧
  t.notices.actuatorFault = joined s.notices.actuatorFault ⟨n, c, r.count⟩ ∧
  usable t n = (if r.faulted then usable s n else false) ∧
  (n = .eev → r.faulted = false → if s.psq.state.compressor = true
    then tripRecorded (s.setPsq { s.psq with eevFaulted := true }) t .eevFault 0
    else t.psq = { s.psq with eevFaulted := true })

/-- A home (R105, R106): each expiry below the limit is one step toward 0; the switch's closing ends it at position 0
with the stored target sought, a faulted stepper's users told it is back (for EEV a decision event, R65); an expiry
at the limit with the switch OPEN is FAULT. The outcome reaches the slot, which ends its operation with the mask's
last stepper and hands over the next one otherwise (R174). The model's choices in it: log 2, log 18, log 19, log 20,
log 25, log 30, log 31. -/
def Obligations.HomeStepsUntilSwitchOrLimit : Prop :=
  ∀ (s : State) (n : Stepper), s.Calm → (s.stepper n).state = .homing → (s.stepper n).refKind = .home →
    (s.stepper n).timer ≠ .stopped →
    let r := s.stepper n
    let stepped := s.setStepper n { r with count := r.count + 1, motion := .down, timer := .step r.stepTime }
    (r.count < r.limit → exec (.homeStep n) s = .next stepped ∧
      ∀ ms, r.timer = .pause ms → exec (.reversalPauseExpiry n) s = .next stepped) ∧
    (∃ t, exec (.homeSwitchClose n) s = .next t ∧
      t.stepper n = fromZero { r with switch := .closed, faulted := false } (t.stepper n).target ∧
      (n ≠ .eev ∨ r.faulted = false → (t.stepper n).target = r.target) ∧
      usable t n = (if r.faulted then true else usable s n) ∧
      (n = .eev → r.faulted = true → decisionTaken (s.setPsq { s.psq with eevFaulted := false }) t) ∧
      lastStepperEnds s t n (bitFor n) 0 ∧ nextStepper s t n (bitFor n) 0) ∧
    (r.limit ≤ r.count → r.switch = .opened → ∃ t, exec (.homeStep n) s = .next t ∧
      faults s t n .homeLimit ∧ lastStepperEnds s t n 0 (bitFor n) ∧ nextStepper s t n 0 (bitFor n))

/-- A verify (R107, R108): each expiry below the limit is one step toward 0, the position UNKNOWN once the count
exceeds the prior position; the switch's closing compares count and prior position, a difference above 4 counting a
slip, and the stored target is sought; an expiry at the limit with the switch OPEN is FAULT. An automatic verify does
not concern the slot; the outcome of a VERIFY operation reaches it: a slip in the first mask, a FAULT in the second,
VERIFIED in neither (R174). The model's choices in it: log 2, log 18, log 19, log 20, log 25, log 30, log 31. -/
def Obligations.AutomaticVerifyJudgesSlip : Prop :=
  ∀ (s : State) (n : Stepper), s.Calm → (s.stepper n).state = .verifying → (s.stepper n).timer ≠ .stopped →
    let r := s.stepper n
    let k := r.count + 1
    let stepped := s.setStepper n { r with
      count := k, motion := .down, timer := .step r.stepTime
      position := if k ≤ r.prior then some (r.prior - k) else none }
    let slip := r.prior + 4 < r.count ∨ r.count + 4 < r.prior
    let slips := if slip then min 255 (r.slipCount + 1) else r.slipCount
    let ended := fromZero { r with switch := .closed, slipCount := slips, takenOver := false } r.target
    (r.count < r.limit → exec (.verifyStep n) s = .next stepped ∧
      ∀ ms, r.timer = .pause ms → exec (.reversalPauseExpiry n) s = .next stepped) ∧
    (r.slipCount ≤ 255 →
      (r.refKind = .automaticVerify → exec (.homeSwitchClose n) s = .next (offer (.actuator n
        (if slip then .slip else .verified) (some r.prior) r.count) (s.setStepper n ended))) ∧
      (r.refKind = .operationVerify → ∃ t, exec (.homeSwitchClose n) s = .next t ∧ t.stepper n = ended ∧
        lastStepperEnds s t n (if slip then bitFor n else 0) 0 ∧ nextStepper s t n (if slip then bitFor n else 0) 0)) ∧
    (r.limit ≤ r.count → r.switch = .opened →
      (r.refKind = .automaticVerify → ∃ t, exec (.verifyStep n) s = .next t ∧
        faults s t n .verifyLimit ∧ (n ≠ .eev → t.ops = s.ops)) ∧
      (r.refKind = .operationVerify → ∃ t, exec (.verifyStep n) s = .next t ∧
        faults s t n .verifyLimit ∧ lastStepperEnds s t n 0 (bitFor n) ∧ nextStepper s t n 0 (bitFor n)))

/-- Switch changes outside HOMING and VERIFYING are recorded only (R106), an opening in every state; the spin-up's
expiry makes the blower running (R115), the overheat cut and the after-run end on theirs (R113, R114). The model's
choices in it: log 2. -/
def Obligations.SwitchesAndDeckTimersRecorded : Prop :=
  ∀ (s : State) (n : Stepper) (d : Deck),
    exec (.homeSwitchOpen n) s = .next (s.setStepper n { s.stepper n with switch := .opened }) ∧
    (s.mail = .empty → (s.stepper n).state ≠ .homing → (s.stepper n).state ≠ .verifying →
      exec (.homeSwitchClose n) s = .next (s.setStepper n { s.stepper n with switch := .closed })) ∧
    ((s.deck d).spinUp.isSome = true →
      exec (.spinUpExpiry d) s = .next (s.setDeck d { s.deck d with running := true, spinUp := none })) ∧
    exec (.overheatCutExpiry d) s = .next (s.setDeck d { s.deck d with cutTimer := none }) ∧
    exec (.afterRunExpiry d) s = .next (s.setDeck d { s.deck d with afterRun := none })

/-- What a pass decides for the decks and sets in the Actuator Driver (R27, R28, R39, R111, R112, R114 to R116): the
commanded stage is the decided one, raised to its floor, and lowered, the lower deck first, until both fit A or stand
at their floors; each deck's record, with its idle-stop count, the spin-up of a stage that rises from 0 and the
after-run of a heater power that falls to 0 or rises; each zone's steps on (its grant, 0 in a blocked deck), the
relay outputs in table order from output 1 upward; the flap and damper targets reach their steppers (R102). The
model's choices in it: log 11, log 16, log 19, log 33. -/
def Obligations.PassReachesActuators : Prop :=
  ∀ s t : State, s.Calm → exec .controlPeriodExpiry s = .next t →
    let off (z : Zone) : Bool := decide ((s.zone z).mode = .off)
    let calls (d : Deck) : Nat :=
      ((deckZones d).map fun z => if off z then 0 else (t.zone z).demand.natAbs).foldl max 0
    let byZones (d : Deck) : Nat := if (deckZones d).all off then 0
      else if calls d ≤ 250 then 1 else if calls d ≤ 500 then 2 else if calls d ≤ 750 then 3 else 4
    let floor (d : Deck) : Nat := floorOf s (s.deck d).afterRun d
    let decided : Decks Nat := .ofFn fun d => max (byZones d) (floor d)
    stagesFit s s.sha.effective floor decided t.sha.stages ∧
    (∀ d : Deck,
      let r := s.deck d
      let quiet := ((deckZones d).all fun z =>
        decide ((s.zone z).mode = .off ∧ (s.zone z).occupancy = 0)) = true ∧ s.aqu.purgeActive = false ∧ r.afterRun = none
      let n := if quiet ∧ 0 < r.stage then min 9 (r.idleCount + 1) else 0
      let c := t.sha.stages.get d
      let st := if n = 9 then 0 else if 0 < c then c else if r.stage = 0 then 0 else 1
      let u := deckMoved { r with idleCount := if n = 9 then 0 else n } st
      let x := afterRunOf (if st = 0 then 0 else deckOn d s.act.stepsOn.get) (deckOn d t.act.stepsOn.get) r.afterRun
      t.deck d = { u with afterRun := x }) ∧
    (∀ z : Zone,
      let r := t.zone z
      let d := t.deck (zoneDeck z)
      let heated := t.sha.direction = .heat ∧ 0 < r.demand ∨ t.sha.direction = .cool ∧ r.demand < 0
      let opened := s.psq.defrostMark = .none ∧ r.mode = .regulate ∧ r.flapUsable = true ∧ heated ∧ 0 < r.share
      t.act.stepsOn.get z = (if d.running = false ∨ d.cutTimer.isSome = true ∨ d.supply = .lost then 0 else r.granted) ∧
      t.act.relays.get z = outputsOf t z ∧
      t.stepper (zoneFlap z) = targetTaken (s.stepper (zoneFlap z))
        (min 200 (if opened then r.flapMin + (r.flapMax - r.flapMin) * r.demand.natAbs / 1000 else r.flapMin))) ∧
    (∀ k, relayOn t.act k = true ↔ ∃ z, let before := (outputsOf t z).first - 1
      before < k ∧ k ≤ 12 ∧ k ≤ before + min (t.zone z).kmax (t.act.stepsOn.get z)) ∧
    t.stepper .fad = targetTaken (s.stepper .fad) (min 400 t.aqu.damper)

/-! ## Sensor Scanner and Watch Unit (07) -/

/-- What a good sample's user block holds of it (R14, R46, R61, R113, Table 7-1). -/
def Sys2Proof.Spec.tookSample (s t : State) (c : Channel) (v : Int) : Prop :=
  let zone (z : Zone) : Prop := t.zone z = { s.zone z with measured := some v, sensorUse := .good }
  let supply (d : Deck) : Prop := (t.deck d).supply = .good ∧
    (t.deck d).cutTimer = (if 600 < v then some 120000 else (s.deck d).cutTimer)
  match c with
  | .tU1 => zone .u1
  | .tU2 => zone .u2
  | .tU3 => zone .u3
  | .tL1 => zone .l1
  | .tL2 => zone .l2
  | .tE => zone .e
  | .tOut => t.sha.outdoor = some v ∧ t.psq.outdoor = some v
  | .tCoil => t.psq.coil = ⟨some v, .good⟩
  | .tSupU => supply .upper
  | .tSupL => supply .lower
  | .tRet => t.zrg = s.zrg ∧ t.sha = s.sha ∧ t.aqu = s.aqu ∧ t.psq = s.psq ∧ t.act = s.act
  | .pSuc => t.psq.pSuc = ⟨some v, .good⟩
  | .pDis => t.psq.pDis = ⟨some v, .good⟩
  | .rh => t.aqu.rh = ⟨some v, .good⟩
  | .co2U => t.aqu.co2.upper = ⟨some v, .good⟩
  | .co2L => t.aqu.co2.lower = ⟨some v, .good⟩

/-- What a good sample of a pressure channel or of T-COIL makes the sequencer do: the trip of R78 on P-DIS above the
discharge limit, the verify window of R71, the start decision where the pressure was LOST (R65), the end of a DEFROST
run at the clear value (R75). -/
def Sys2Proof.Spec.plantTakesSample (s t : State) (c : Channel) (v : Int) : Prop :=
  let x := s.psq
  let p : Psq := if c = .pSuc then { x with pSuc := ⟨some v, .good⟩ } else { x with pDis := ⟨some v, .good⟩ }
  let was := if c = .pSuc then x.pSuc.quality else x.pDis.quality
  let trips := c = .pDis ∧ x.state.compressor = true ∧ (x.settings.dischargeLimit : Int) < v
  let shown : Bool := match p.pSuc.value, p.pDis.value with
    | some a, some b => decide ((x.settings.verifyDifference : Int) ≤ b - a)
    | _, _ => false
  (c = .pSuc ∨ c = .pDis →
    (trips → stopSent s t ∧ tripsWith (s.setPsq p) t .highDischarge 0) ∧
    (¬trips → x.state = .run → t.psq = { p with
      verifyWindow := if x.verifyWindow = .opened ∧ shown = true then .satisfied else x.verifyWindow }) ∧
    (¬trips → x.state ≠ .run → (was ≠ .lost → t.psq = p) ∧ (was = .lost → decisionTaken (s.setPsq p) t))) ∧
  (c = .tCoil →
    let u : Psq := { x with coil := ⟨some v, .good⟩ }
    let cleared := x.state = .run ∧ x.mode = some .defrost ∧ (x.settings.defrostClear : Int) ≤ v
    (cleared → stopSent s t ∧ t.psq = rampedDown (defrostOver u .cleared 0) ∧ defrostSlot s t .done .cleared) ∧
    (¬cleared → t.psq = u))

/-- A good sample (R121, R125): the value is offset + raw × gain / 4096 truncated toward zero, clamped to the
channel's range; the channel is GOOD with its loss timer stopped, a return from LOST raises SENSOR STATE; the user
block takes it, and the sequencer acts on a pressure or on T-COIL: HIGH_DISCHARGE (R78), the verify window (R71,
against the other pressure as last stored: the model's choice, log 28), a pressure back from LOST (R65), a DEFROST
run CLEARED (R75); no other channel changes. The model's choices in it: log 20, log 25, log 28. -/
def Obligations.GoodSampleIsConvertedAndHandedOut : Prop :=
  ∀ (s : State) (c : Channel) (raw : Nat), s.Calm → 16 ≤ raw → raw ≤ 4079 →
    let r := s.channel c
    let u : Int := r.offset + ((raw : Int) * r.gain).tdiv 4096
    let hi : Int := match c with
      | .pSuc | .pDis => 400
      | .rh => 1000
      | .co2U | .co2L => 5000
      | _ => 850
    let lo : Int := if hi = 850 then -400 else 0
    let v := max lo (min hi u)
    ∃ t, exec (.channelSample c raw) s = .next t ∧
      t.ssc = s.ssc.set c { r with
        quality := .good, value := some v, clamped := decide (v ≠ u), lastRaw := some raw, lossTimer := none } ∧
      t.notices.sensorState = (if r.quality = .lost then
        joined s.notices.sensorState ⟨c, .good, some v, .ofFn fun k => (t.channel k).quality⟩
        else s.notices.sensorState) ∧
      tookSample s t c v ∧ plantTakesSample s t c v

/-- A FAULT sample (R121, R123): the raw reading is kept and the fault counted; a GOOD channel becomes HELD with its
loss timer at 30 s and no notice; in HELD and LOST nothing else changes; no watch takes it. Loss timer expiry (R124):
a HELD channel is LOST with its value kept, a SENSOR STATE notice is raised, and the user blocks act: a zone is
BORROWED with the truncated mean of the measured values of its GOOD deck-mates, or BLIND without one (R16), a lost
pressure trips the compressor states (R78), a lost RH makes the humidity NORMAL (R56), a lost supply-air channel
takes the deck's heaters off (R113). The model's choices in it: log 2. -/
def Obligations.FaultSamplesHoldThenLoseTheChannel : Prop :=
  (∀ (s : State) (c : Channel) (raw : Nat), s.Calm → raw ≤ 15 ∨ (4080 ≤ raw ∧ raw ≤ 4095) →
    let r := s.channel c
    let r1 := { r with lastRaw := some raw, faultCount := if r.faultCount < 65535 then r.faultCount + 1 else 65535 }
    (r.quality ≠ .good → exec (.channelSample c raw) s = .next (s.setChannel c r1)) ∧
    (r.quality = .good → ∃ t, exec (.channelSample c raw) s = .next t ∧
      t.ssc = s.ssc.set c { r1 with quality := .held, lossTimer := some 30000 } ∧ t.blp = s.blp ∧ t.wch = s.wch ∧
      t.sha = s.sha ∧ t.psq.state = s.psq.state ∧
      ∀ z, zoneChannel z = c → t.zone z =
        (if (s.zone z).measured = none then s.zone z else { s.zone z with sensorUse := .held }))) ∧
  (∀ (s : State) (c : Channel), s.Calm → (s.channel c).quality = .held → (s.channel c).lossTimer.isSome = true →
    ∃ t, exec (.lossTimerExpiry c) s = .next t ∧
      t.ssc = s.ssc.set c { s.channel c with quality := .lost, lossTimer := none } ∧
      t.notices.sensorState =
        joined s.notices.sensorState ⟨c, .lost, (s.channel c).value, .ofFn fun k => (t.channel k).quality⟩ ∧
      (∀ z, zoneChannel z = c →
        let values := mateValues s z
        t.zone z = if values = [] then { s.zone z with sensorUse := .blind }
          else { s.zone z with measured := some (values.sum.tdiv values.length), sensorUse := .borrowed }) ∧
      (c = .pSuc ∨ c = .pDis → s.psq.state.compressor = true →
        t.psq.faultRecord.cause = some .pressureLost ∧ (t.psq.state = .tripped ∨ t.psq.state = .lockout)) ∧
      (c = .rh → t.aqu.humidity = .normal ∧ t.aqu.rh = { s.aqu.rh with quality := .lost }) ∧
      (c = .tSupU → ∀ z, zoneDeck z = .upper → t.act.stepsOn.get z = 0) ∧
      (c = .tSupL → ∀ z, zoneDeck z = .lower → t.act.stepsOn.get z = 0))

/-- A watch after a good sample of its channel (R129, R130, R133). -/
def Sys2Proof.Spec.watchAfter (w : WatchRec) (v : Int) : WatchRec :=
  let beyond : Bool := match w.direction with
    | .above => decide (w.threshold < v)
    | .below => decide (v < w.threshold)
  let back : Bool := match w.direction with
    | .above => decide (v < w.threshold - w.hysteresis)
    | .below => decide (w.threshold + w.hysteresis < v)
  match w.state with
  | .disarmed => w
  | .armed =>
    if beyond = false then { w with count := 0 }
    else if w.count + 1 < w.persistence then { w with count := w.count + 1 }
    else { w with state := .tripped, count := 0, tripCount := if w.tripCount < 255 then w.tripCount + 1 else 255
                  tripValue := some v }
  | .tripped => if w.autoRearm = true ∧ back = true then { w with state := .armed, count := 0 } else w

/-- A good sample is taken by every watch of its channel and by no other (R129, R130, R133). A watch that trips:
WATCH TRIP with NOTIFY, the start trigger, the WATCH record, the stop trigger by the table of R164 (said of the only
watch on T-RET, with room in the queue; and where the SNAPSHOT fills the queue under COMPLETE, which leaves
WATCH_START and then FULL raised). The model's choices in it: log 17, log 42, log 43. -/
def Obligations.WatchesTakeGoodSamples : Prop :=
  (∀ (s t : State) (c : Channel) (raw : Nat) (v : Int), s.Calm → 16 ≤ raw → raw ≤ 4079 →
    exec (.channelSample c raw) s = .next t → (t.channel c).value = some v →
    ∀ i, t.watch i = (if (s.watch i).channel = c then watchAfter (s.watch i) v else s.watch i) ∧
      ((s.watch i).state = .armed → (t.watch i).state = .tripped → (s.watch i).notify = true →
        t.notices.watchTrip.isSome = true)) ∧
  (∀ (s t : State) (raw : Nat) (v : Int) (i : Idx8), s.Calm → 16 ≤ raw → raw ≤ 4079 →
    exec (.channelSample .tRet raw) s = .next t → (t.channel .tRet).value = some v →
    (s.watch i).channel = .tRet → (∀ j, j ≠ i → (s.watch j).channel ≠ .tRet) →
    (s.watch i).state = .armed → (t.watch i).state = .tripped →
    let w := s.watch i
    let q := s.trq.queue
    let n := (t.watch i).tripCount
    let snap : TraceRec := ⟨s.time, snapshotBody s⟩
    let starts := w.traceStart = true ∧ (s.trq.capture = .off ∨ s.trq.capture = .armed)
    let c1 : Capture := if starts then .capturing else s.trq.capture
    let q1 := (if starts then q ++ [snap] else q) ++
      (if c1 = .capturing then [(⟨s.time, .watch i .tRet v n⟩ : TraceRec)] else [])
    let stops := w.traceStop = true ∧ (c1 = .armed ∨ c1 = .capturing)
    let begun := joined s.notices.traceState ⟨.capturing, .watchStart, some i, q.length, s.trq.dropCount⟩
    let o1 := if starts then begun else s.notices.traceState
    t.notices.watchTrip = (if w.notify = true
      then joined s.notices.watchTrip ⟨i, .tRet, v, n, .ofFn fun j => (t.watch j).state⟩ else s.notices.watchTrip) ∧
    (q.length < 254 →
      t.trq = { s.trq with
        capture := if stops then .off else c1, periodCount := if starts then 0 else s.trq.periodCount, queue := q1 } ∧
      t.notices.traceState = (if stops then joined o1 ⟨.off, .watchStop, some i, q1.length, s.trq.dropCount⟩ else o1)) ∧
    (q.length = 255 → s.trq.policy = .complete → starts →
      t.trq = { s.trq with capture := .fullStopped, periodCount := 0, queue := q ++ [snap] } ∧
      t.notices.traceState = joined begun ⟨.fullStopped, .full, none, 256, s.trq.dropCount⟩))

/-- WATCH SET (R128): the settings, clamped, replace those of the watch, which is DISARMED with its counts 0 and no
trip value; a watch above 7, a channel above 15, a direction above 1 or an unknown action bit is refused with
BAD_INDEX. ARM WATCH (R132): ARM makes the watch ARMED with count 0, DISARM makes it DISARMED with count 0, in every
state; its settings, trip count and trip value are kept; a number above 7 or another action is refused with
BAD_INDEX. The model's choices in it: log 1, log 26. -/
def Obligations.WatchesAreSetArmedAndDisarmed : Prop :=
  (∀ (s : State) (tag w c th tl d hh hl n acts rearm : Byte),
    let p := [w, c, th, tl, d, hh, hl, n, acts, rearm]
    s.CanTake ⟨0x13, tag, p⟩ →
    let x := th.toNat * 256 + tl.toNat
    let v : Int := if x < 32768 then (x : Int) else (x : Int) - 65536
    let h := hh.toNat * 256 + hl.toNat
    (∀ i ch, Idx8.at w.toNat = some i → Channel.at c.toNat = some ch → d.toNat ≤ 1 → acts.toNat ≤ 7 →
      let range := channelRange ch
      let thr := max range.1 (min range.2 v)
      let exact := thr = v ∧ h ≤ 500 ∧ 1 ≤ n.toNat ∧ n.toNat ≤ 15
      exec (.watchSet tag p) s = .next ((s.taken.setWatch i
        { channel := ch, threshold := thr, direction := if d = 0 then .above else .below
          hysteresis := min 500 h, persistence := max 1 (min 15 n.toNat), notify := acts.toNat.testBit 0
          traceStart := acts.toNat.testBit 1, traceStop := acts.toNat.testBit 2, autoRearm := decide (rearm ≠ 0)
          state := .disarmed, count := 0, tripCount := 0, tripValue := none }).replying 0x93 tag
        [if exact then 0 else 1])) ∧
    (8 ≤ w.toNat ∨ 16 ≤ c.toNat ∨ 2 ≤ d.toNat ∨ 8 ≤ acts.toNat →
      exec (.watchSet tag p) s = .next (s.taken.replying 0x93 tag [4]))) ∧
  (∀ (s : State) (tag w a : Byte), s.CanTake ⟨0x15, tag, [w, a]⟩ →
    (∀ i, Idx8.at w.toNat = some i →
      (a = 0 → exec (.armWatchArm tag [w, a]) s =
        .next ((s.taken.setWatch i { s.watch i with state := .armed, count := 0 }).replying 0x95 tag [0])) ∧
      (a = 1 → exec (.armWatchDisarm tag [w, a]) s =
        .next ((s.taken.setWatch i { s.watch i with state := .disarmed, count := 0 }).replying 0x95 tag [0]))) ∧
    (8 ≤ w.toNat ∨ 2 ≤ a.toNat →
      (a ≠ 1 → exec (.armWatchArm tag [w, a]) s = .next (s.taken.replying 0x95 tag [4])) ∧
      (a ≠ 0 → exec (.armWatchDisarm tag [w, a]) s = .next (s.taken.replying 0x95 tag [4]))))

/-! ## Stage Runner (08) -/

/-- STAGES WRITE (R136, R152): each record is written to its place with outcome NONE and pass count 0, every other
place is kept, and a resume point whose place is written forgets what it saved. ENTRY WRITE (R137): the entry is
written, an EMPTY place or UNSET included. RUNNING or WAITING is refused with RUNNER_ACTIVE; a place past 127, an
unknown kind, a list above 7 with BAD_INDEX; a refusal changes nothing. The model's choices in it: log 1. -/
def Obligations.StagesAndEntriesAreWritten : Prop :=
  (∀ (s : State) (tag first : Byte) (l : List StageBytes), storeWf s.str.store = true → 1 ≤ l.length → l.length ≤ 24 →
    let p := first :: l.flatMap StageBytes.toList
    let a := first.toNat
    s.CanTake ⟨0x0A, tag, p⟩ →
    let active := s.runner.state = .running ∨ s.runner.state = .waiting
    let bad := 128 < a + l.length ∨ ∃ b ∈ l, 13 < b.b0.toNat
    (active → exec (.stagesWrite tag p) s = .next (s.taken.replying 0x8A tag [7])) ∧
    (¬active → bad → exec (.stagesWrite tag p) s = .next (s.taken.replying 0x8A tag [4])) ∧
    (¬active → ¬bad → ∃ store, storeWf store = true ∧
      exec (.stagesWrite tag p) s = .next ((s.taken.setStr { s.str with
        store := store
        runner := { s.runner with resume := s.runner.resume.map fun q =>
          if a ≤ q.index ∧ q.index < a + l.length then { q with secondsLeft := none, placed := .none } else q } }).replying
            0x8A tag [0]) ∧
      ∀ i, storeGet store i = match (if a ≤ i then l[i - a]? else none) with
        | some b => ⟨b, .none, 0⟩
        | none => s.stage i)) ∧
  (∀ (s : State) (tag l e : Byte), s.CanTake ⟨0x0C, tag, [l, e]⟩ →
    let active := s.runner.state = .running ∨ s.runner.state = .waiting
    (active → exec (.entryWrite tag [l, e]) s = .next (s.taken.replying 0x8C tag [7])) ∧
    (¬active → (8 ≤ l.toNat ∨ (128 ≤ e.toNat ∧ e ≠ 0xFF)) →
      exec (.entryWrite tag [l, e]) s = .next (s.taken.replying 0x8C tag [4])) ∧
    (¬active → ∀ i, Idx8.at l.toNat = some i → e.toNat < 128 ∨ e = 0xFF →
      exec (.entryWrite tag [l, e]) s = .next ((s.taken.setStr { s.str with
        entries := s.str.entries.set i (if e = 0xFF then none else some e.toNat) }).replying 0x8C tag [0])))

/-- The runner of a list that stops (R141). -/
def Sys2Proof.Spec.stopped (r : Runner) (c : StopCause) (i : StopIndex) : Runner :=
  { r with state := .stopped, stopCause := c, stopIndex := i, current := none, waitingOn := .none, secondsLeft := none
           placed := .none, resume := none, pollTimer := none }

/-- The runner right after a start at an index (R151), before its first stage. -/
def Sys2Proof.Spec.started (r : Runner) (list : Idx8) (suspends : Bool) (i : Nat) : Runner :=
  { r with list := some list, suspendOnTrip := suspends, stopCause := .none, stopIndex := .none, resume := none
           placed := .none, state := .running, current := some i, burstCount := 0, waitingOn := .none
           pollTimer := none }

/-- A stage record after a completion (R139). -/
def Sys2Proof.Spec.stamped (r : StageRec) (o : StageOutcome) : StageRec :=
  { r with outcome := o, passes := if r.passes < 255 then r.passes + 1 else 255 }

/-- What a list leaves that completed one stage and then found the next place EMPTY (R139 to R141), given the state `u`
that the stage's own effect makes of `s`, and the port: all as in `u` but for the stamp, the runner, RUNNER END, and
what the STAGE record of a level 3 capture does. -/
def Sys2Proof.Spec.ranOne (s u t : State) (i next : Nat) (o : StageOutcome) (r : Runner) (b : Blp) : Prop :=
  t = { u with
    str := t.str, trq := t.trq
    blp := { b with notices := { u.notices with
      runnerEnd := joined s.notices.runnerEnd ⟨r.list, .stageUnavailable, .at next⟩
      traceState := t.notices.traceState } } } ∧
  t.runner = stopped { r with burstCount := 1 } .stageUnavailable (.at next) ∧
  t.str.entries = s.str.entries ∧ t.str.counters = u.str.counters ∧
  (∀ j, t.stage j = if j = i then stamped (s.stage i) o else s.stage j) ∧
  (s.trq.capture ≠ .capturing ∨ s.trq.level < 3 → t.trq = u.trq ∧ t.notices.traceState = u.notices.traceState)

/-- Whether a condition holds, by its code and argument (R144, R181, Table 8-6); none where it is malformed. -/
def Sys2Proof.Spec.condHolds (s : State) (code arg : Nat) : Option Bool :=
  let regulated (z : Zone) : Bool := decide ((s.zone z).mode = .regulate)
  match code with
  | 1 => some true
  | 2 => (Zone.at arg).map fun z => (s.zone z).inBand
  | 3 => some ((Zone.all.any regulated) && Zone.all.all fun z => !regulated z || (s.zone z).inBand)
  | 4 => match arg with
    | 0 => some (decide (s.sha.direction = .idle))
    | 1 => some (decide (s.sha.direction = .heat))
    | 2 => some (decide (s.sha.direction = .cool))
    | _ => none
  | 5 => some (decide (s.psq.state = .run))
  | 6 => some (decide (s.psq.defrostMark ≠ .none))
  | 7 => some (decide (0 < s.sha.last.totalShortfall))
  | 8 => (Idx8.at arg).map fun w => decide ((s.watch w).state = .tripped)
  | 9 => some ((s.door .d1).isOpen || (s.door .d2).isOpen)
  | 10 => some s.ops.slot.isNone
  | 11 => some (decide (s.sha.allowState = .fresh))
  | 12 => some (decide (s.aqu.vent = .degraded))
  | 13 => some (decide (s.psq.state = .lockout))
  | _ => none

/-- A trip that a test of WATCH TRIPPED found is consumed (R131): the watch is ARMED with count 0. -/
def Sys2Proof.Spec.consumed (s : State) (code arg : Nat) : State :=
  match code, Idx8.at arg with
  | 8, some w => if (s.watch w).state = .tripped then s.setWatch w { s.watch w with state := .armed, count := 0 } else s
  | _, _ => s

/-- A stage whose fields are malformed (Table 8-4, Table 8-6, R181). -/
def Sys2Proof.Spec.malformed (s : State) (b : StageBytes) : Prop :=
  match b.b0.toNat with
  | 1 => b.b1 = 0 ∨ 64 ≤ b.b1.toNat
  | 2 => b.b1 = 0 ∨ 64 ≤ b.b1.toNat ∨ 3 ≤ b.b2.toNat
  | 3 => b.b1 = 1 ∨ 4 ≤ b.b1.toNat
  | 4 => 2 ≤ b.b1.toNat
  | 5 => condHolds s b.b1.toNat b.b2.toNat = none ∨ (128 ≤ b.b5.toNat ∧ b.b5 ≠ 0xFF)
  | 6 => condHolds s b.b1.toNat b.b2.toNat = none ∨ 128 ≤ b.b3.toNat
  | 7 => 4 ≤ b.b1.toNat
  | 8 => 4 ≤ b.b1.toNat ∨ 128 ≤ b.b2.toNat
  | 9 => b.b1 = 0 ∨ 5 ≤ b.b1.toNat
  | 10 => 8 ≤ b.b1.toNat ∨ 2 ≤ b.b2.toNat
  | _ => False

/-- The unit as a hold's end leaves it, with its cause (R54). -/
def Sys2Proof.Spec.holdOver (a : Aqu) (c : HoldEnd) : Aqu :=
  { a with holdActive := false, holdTimer := none, holdEnd := some c }

/-- A PURGE of k periods has started for the runner (R57, R148, R173). -/
def Sys2Proof.Spec.purgeBegun (s t : State) (k : Nat) : Prop :=
  let a := { s.aqu with purgeActive := true, purgeCount := k, periodsRun := 0 }
  t.ops = ⟨some ⟨.purge k, .runner, false, none⟩, ⟨some .purge, some .runner, .running, .zero⟩⟩ ∧
  t.aqu = airDecided s (if a.holdActive then holdOver a .purge else a) ∧
  t.notices.recircHoldEnd = (if a.holdActive then joined s.notices.recircHoldEnd ⟨.purge, holdSeconds s⟩
    else s.notices.recircHoldEnd)

/-- A list runs from a stage at index i (R140, R141, R146): what the command that began the burst answers, given the
runner at the burst's beginning and the kind and tag of the reply, by what stands at that place. Every stage is said
byte by byte from Table 11-7; what completes is said where the next place is EMPTY, at which the list stops. -/
def Sys2Proof.Spec.stageRuns (s : State) (out : Host.Outcome State Fault Refusal) (i : Nat) (r : Runner)
    (k tag : Byte) : Prop :=
  let b := (s.stage i).bytes
  let kind := b.b0
  let port := (s.taken.replying k tag [0]).blp
  let next (n : Nat) : Prop := n < 128 ∧ n ≠ i ∧ (s.stage n).bytes.b0 = 0
  let one (u : State) (n : Nat) (o : StageOutcome) : Prop := next n → ∃ t, out = .next t ∧ ranOne s u t i n o r port
  let ends (t : State) (c : StopCause) (o : StageOutcome) : Prop :=
    t.blp.reply = some ⟨k, tag, [0]⟩ ∧ t.notices.runnerEnd = joined s.notices.runnerEnd ⟨r.list, c, .at i⟩ ∧
    ∀ j, t.stage j = if j = i then stamped (s.stage i) o else s.stage j
  (kind = 13 → ∃ t, out = .next t ∧ t.runner = stopped { r with burstCount := 1 } .done (.at i) ∧ ends t .done .done) ∧
  (malformed s b → ∃ t, out = .next t ∧ t.runner = stopped r .badStage (.at i) ∧ ends t .badStage .failed) ∧
  (kind = 0 → out = .next (((s.taken.setRunner (stopped r .stageUnavailable (.at i))).setNotices
      { s.notices with runnerEnd := joined s.notices.runnerEnd ⟨r.list, .stageUnavailable, .at i⟩ }).replying
        k tag [0])) ∧
  -- WAIT
  (kind = 5 → b.b5.toNat < 128 ∨ b.b5 = 0xFF →
    let n := b.b3.toNat * 256 + b.b4.toNat
    (condHolds s b.b1.toNat b.b2.toNat = some true → one (consumed s b.b1.toNat b.b2.toNat) (i + 1) .done) ∧
    (condHolds s b.b1.toNat b.b2.toNat = some false → out = .next ((s.taken.setRunner { r with
      state := .waiting, waitingOn := .condition, pollPhase := 0, pollTimer := some 500, placed := .none
      secondsLeft := if n = 0 then none else some (min 3600 n) }).replying k tag [0]))) ∧
  -- SET SETPOINT and SET ZONE MODE
  (let n := b.b2.toNat * 256 + b.b3.toNat
   let sp : Option Int := if n = 0x7FFF then none else some (if n < 32768 then (n : Int) else (n : Int) - 65536)
   let zones (m : Option ZoneMode) (v : Option Int) : State := s.setZones (.ofFn fun z =>
     if b.b1.toNat.testBit z.pos then zoneWritten m v (s.zone z) else s.zone z)
   (kind = 1 → b.b1 ≠ 0 → b.b1.toNat < 64 → one (zones none sp) (i + 1) .done) ∧
   (kind = 2 → b.b1 ≠ 0 → b.b1.toNat < 64 → ∀ m : ZoneMode,
     b.b2 = (match m with
       | .off => 0
       | .vent => 1
       | .regulate => 2) → one (zones (some m) none) (i + 1) .done)) ∧
  -- SET AIR POLICY
  (let n := b.b2.toNat * 256 + b.b3.toNat
   let limit := max 1 (min 600 n)
   let air (a : Aqu) (m : NoticeSet) : Prop := next (i + 1) → ∃ u t, out = .next t ∧
     damperMoves s u a ∧ u.notices = { m with traceState := u.notices.traceState } ∧ ranOne s u t i (i + 1) .done r port
   kind = 3 → s.aqu.policyMin ≤ 1000 →
     (b.b1 = 0 → air (airDecided s { s.aqu with policyMin := min 1000 n }) s.notices) ∧
     (b.b1 = 2 →
       (s.aqu.purgeActive = true → one s (i + 1) .done) ∧
       (s.aqu.purgeActive = false → s.aqu.holdActive = true → one (s.setAqu { s.aqu with
         holdTimer := some (1000 * max 1 (min limit (600 - holdSeconds s))) }) (i + 1) .done) ∧
       (s.aqu.purgeActive = false → s.aqu.holdActive = false → air (airDecided s { s.aqu with
         holdActive := true, holdFirstStart := s.time, holdTimer := some (1000 * limit) }) s.notices)) ∧
     (b.b1 = 3 →
       (s.aqu.holdActive = false → one s (i + 1) .done) ∧
       (s.aqu.holdActive = true → air (airDecided s (holdOver s.aqu .released)) { s.notices with
         recircHoldEnd := joined s.notices.recircHoldEnd ⟨.released, holdSeconds s⟩ }))) ∧
  -- SET CAP
  (kind = 4 → b.b1.toNat < 2 →
    let n := b.b2.toNat * 256 + b.b3.toNat
    let cap := if b.b1 = 0 then some (min 40000 n) else none
    let a := if b.b1 = 0 then min s.sha.inUse (min 40000 n) else s.sha.inUse
    (standing s ≤ a → one (s.setSha { s.sha with runnerCap := cap, effective := a }) (i + 1) .done) ∧
    (a < standing s → (∀ z, 0 < (s.zone z).granted → z ∈ s.sha.last.order) → next (i + 1) →
      ∃ t, out = .next t ∧ t.sha.runnerCap = cap ∧ t.sha.effective = a ∧
        t.sha.command + 500 * (zoneSum fun z => (t.zone z).granted) ≤ a - blowerPower t.sha.blowers t.sha.stages ∧
        t.stage i = stamped (s.stage i) .done)) ∧
  -- BRANCH
  (kind = 6 → ∀ holds, condHolds s b.b1.toNat b.b2.toNat = some holds → b.b3.toNat < 128 →
    if holds then one (consumed s b.b1.toNat b.b2.toNat) b.b3.toNat .taken else one s (i + 1) .notTaken) ∧
  -- LOAD COUNT and COUNT JUMP
  (∀ c, Idx4.at b.b1.toNat = some c →
    let n := s.str.counters.get c
    let counted (v : Nat) : State := s.setStr { s.str with counters := s.str.counters.set c v }
    (kind = 7 → one (counted b.b2.toNat) (i + 1) .done) ∧
    (kind = 8 → b.b2.toNat < 128 →
      (0 < n → one (counted (n - 1)) b.b2.toNat .taken) ∧ (n = 0 → one s (i + 1) .notTaken))) ∧
  -- OPERATE
  (kind = 9 → 1 ≤ b.b1.toNat → b.b1.toNat ≤ 4 →
    let arg := b.b3.toNat * 256 + b.b4.toNat
    let form := b.b1 = 3 ∨ b.b1 = 4 ∨ (1 ≤ arg ∧ arg ≤ 255)
    let periods := max 1 (min 150 arg)
    let waits (w : WaitingOn) (p : Placed) : Runner := { r with
      state := .waiting, waitingOn := w, secondsLeft := none, placed := p, pollPhase := 0, pollTimer := some 500 }
    let accepted (effect : State → Prop) : Prop :=
      (b.b2 = 0 → next (i + 1) → ∃ t, out = .next t ∧ effect t ∧ t.stage i = stamped (s.stage i) .done ∧
        t.runner = stopped { r with burstCount := 1 } .stageUnavailable (.at (i + 1))) ∧
      (b.b2 ≠ 0 → ∃ t, out = .next t ∧ effect t ∧ t.runner = waits .operationEnd .placed ∧
        t.blp.reply = some ⟨k, tag, [0]⟩)
    let referenced (w : OpWork) (n : Stepper) (x : StepperRec) : Prop :=
      let u := (s.setStepper n (firstStepTimed x)).setOps (slotTaken .runner w (some n))
      (b.b2 = 0 → one u (i + 1) .done) ∧
      (b.b2 ≠ 0 → out = .next ((u.taken.setRunner (waits .operationEnd .placed)).replying k tag [0]))
    (¬form → one s (i + 1) .failed) ∧
    (form → s.ops.slot.isSome = true → out = .next ((s.taken.setRunner (waits .slot .none)).replying k tag [0])) ∧
    (∀ n : Stepper, form → s.ops.slot = none → arg.testBit n.pos = true →
      (∀ m : Stepper, m.pos < n.pos → arg.testBit m.pos = false) → (s.stepper n).switch = .opened →
      let mask := BitVec.ofNat 8 arg
      let x := { s.stepper n with count := 0, takenOver := false }
      (b.b1 = 1 → referenced (.home mask) n { x with
        state := .homing, refKind := .home, limit := travel n + 40, position := none }) ∧
      (∀ p, b.b1 = 2 → x.state = .idle ∨ x.state = .seeking → x.position = some p → referenced (.verify mask) n { x with
        state := .verifying, refKind := .operationVerify, prior := p, limit := p + 40 })) ∧
    (b.b1 = 3 → s.ops.slot = none → ¬(s.psq.state = .run ∧ s.psq.mode = some .heat) → one s (i + 1) .failed) ∧
    (b.b1 = 3 → s.ops.slot = none → s.psq.state = .run → s.psq.mode = some .heat → accepted fun t =>
      t.psq = rampedDown { s.psq with defrostMark := .operation } ∧ stopSent s t ∧ t.ops = slotTaken .runner .defrost none) ∧
    (b.b1 = 4 → s.ops.slot = none → s.aqu.policyMin ≤ 1000 → accepted fun t => purgeBegun s t periods)) ∧
  -- ARM WATCH
  (kind = 10 → ∀ w, Idx8.at b.b1.toNat = some w →
    (b.b2 = 0 → one (s.setWatch w { s.watch w with state := .armed, count := 0 }) (i + 1) .done) ∧
    (b.b2 = 1 → one (s.setWatch w { s.watch w with state := .disarmed, count := 0 }) (i + 1) .done)) ∧
  -- MARK and NOTIFY
  (let v := b.b1.toNat * 256 + b.b2.toNat
   (kind = 11 → s.trq.capture ≠ .capturing → one s (i + 1) .done) ∧
   (kind = 11 → s.trq.capture = .capturing → s.trq.queue.length < 254 →
     one (s.setTrq { s.trq with queue := s.trq.queue ++ [⟨s.time, .mark v .runner⟩] }) (i + 1) .done) ∧
   (kind = 12 → one (s.setNotices { s.notices with
     stageNotice := joined s.notices.stageNotice ⟨v, i⟩ }) (i + 1) .done))

/-- RUNNER START (R151, R140, R141, R146): a list above 7, a WAITING or SUSPENDED runner and an UNSET entry are
refused; otherwise the list runs from its entry. An END stage stops it DONE, stamped and counted; an EMPTY place
stops it STAGE_UNAVAILABLE, a malformed stage BAD_STAGE with outcome FAILED; a WAIT whose condition is false waits;
an OPERATE in an occupied slot waits on SLOT, one that waits for its operation on OPERATION END (R148). Every other
stage, byte by byte from Table 11-7, has its effect and completes (R25, R131, R142 to R144, R148), said where the
next place is EMPTY: SET SETPOINT, SET ZONE MODE, SET AIR POLICY, SET CAP, a WAIT true at once and BRANCH both ways
with the consumption of a trip, LOAD COUNT, COUNT JUMP both ways, OPERATE refused or accepted (HOME and VERIFY where
the first stepper's switch is OPEN), ARM WATCH, MARK, NOTIFY. The model's choices in it: log 1, log 17, log 19, log
20, log 22, log 25, log 31, log 37, log 38. -/
def Obligations.RunnerStartExecutesEntry : Prop :=
  ∀ (s : State) (tag l f : Byte), s.mail = .empty → storeWf s.str.store = true → s.CanTake ⟨0x0D, tag, [l, f]⟩ →
    (8 ≤ l.toNat → exec (.runnerStart tag [l, f]) s = .next (s.taken.replying 0x8D tag [4])) ∧
    ∀ list, Idx8.at l.toNat = some list →
      (s.runner.state = .waiting ∨ s.runner.state = .suspended →
        exec (.runnerStart tag [l, f]) s = .next (s.taken.replying 0x8D tag [7])) ∧
      (s.runner.state = .idle ∨ s.runner.state = .stopped →
        (s.str.entries.get list = none → exec (.runnerStart tag [l, f]) s = .next (s.taken.replying 0x8D tag [8])) ∧
        ∀ i, s.str.entries.get list = some i → i < 128 →
          stageRuns s (exec (.runnerStart tag [l, f]) s) i (started s.runner list (decide (f ≠ 0)) i) 0x8D tag)

/-- A stage that goes on from index i to index j without a wait, whatever stands in the machine (R142 to R144, R148): a
BRANCH on ALWAYS, or a stage that completes DONE with the index after it. -/
def Sys2Proof.Spec.goesOn (s : State) (i j : Nat) : Prop :=
  let b := (s.stage i).bytes
  (b.b0 = 6 ∧ b.b1 = 1 ∧ b.b3.toNat < 128 ∧ j = b.b3.toNat) ∨
  ((b.b0 = 1 ∨ b.b0 = 2 ∨ b.b0 = 3 ∨ b.b0 = 4 ∨ b.b0 = 7 ∨ b.b0 = 10 ∨ b.b0 = 11 ∨ b.b0 = 12) ∧ ¬malformed s b ∧ j = i + 1)

/-- A chain of stages that never waits is stopped RUNAWAY after 64 completions (R140), at the index about to be
executed, END OF STORE where that is past 127: each stage on the way is stamped as often as it was visited, and
RUNNER END is raised. The chain is any sequence of BRANCH on ALWAYS and of stages that complete with the index after
them, a place visited more than once among them, so that every loop of such stages is one. The model's choices in it:
log 1, log 44. -/
def Obligations.EndlessLoopStopsAfter64Stages : Prop :=
  ∀ (s : State) (tag l f : Byte) (list : Idx8) (place : Nat → Nat), s.mail = .empty → storeWf s.str.store = true →
    s.CanTake ⟨0x0D, tag, [l, f]⟩ → Idx8.at l.toNat = some list → s.runner.state = .idle ∨ s.runner.state = .stopped →
    s.str.entries.get list = some (place 0) →
    (∀ k, k < 64 → place k < 128 ∧ goesOn s (place k) (place (k + 1))) →
    let r := started s.runner list (decide (f ≠ 0)) (place 0)
    let at' : StopIndex := if place 64 < 128 then .at (place 64) else .endOfStore
    ∃ t, exec (.runnerStart tag [l, f]) s = .next t ∧ t.runner = stopped { r with burstCount := 64 } .runaway at' ∧
      t.notices.runnerEnd = joined s.notices.runnerEnd ⟨some list, .runaway, at'⟩ ∧
      ∀ j, let n := ((List.range 64).filter fun k => decide (place k = j)).length
        (n = 0 → t.stage j = s.stage j) ∧
        (0 < n → t.stage j = { s.stage j with
          outcome := if (s.stage j).bytes.b0 = 6 then .taken else .done, passes := min 255 ((s.stage j).passes + n) })

/-- RUNNER HOLD, RESUME and STOP (R152, R154, R155): HOLD in WAITING writes the resume point and suspends. RESUME
sets the list on from the resume index: a WAIT with seconds saved is tested at once, and is DONE, or waits on with
them; an OPERATE whose operation is PLACED waits for its end, one whose operation has ENDED completes DONE or FAILED;
a place with nothing saved, or rewritten since (which clears what was saved), is executed afresh, as by a start. STOP
ends a WAITING or SUSPENDED list at its index with a RUNNER END notice, and in IDLE or STOPPED only writes the cause;
HOLD and RESUME elsewhere are NOT_APPLICABLE. What completes is said where the next place is EMPTY. The model's
choices in it: log 1, log 17, log 19, log 20, log 22, log 25, log 31, log 37, log 38. -/
def Obligations.HoldResumeStopControlTheList : Prop :=
  ∀ (s : State) (tag : Byte), s.mail = .empty →
    let r := s.runner
    (s.CanTake ⟨0x0E, tag, []⟩ →
      (∀ i, r.state = .waiting → r.current = some i → exec (.runnerHold tag []) s =
        .next ((s.taken.setRunner { r with
          state := .suspended, resume := some ⟨i, r.secondsLeft, r.placed⟩, pollTimer := none
          pollPhase := 0 }).replying 0x8E tag [0])) ∧
      (r.state = .suspended → exec (.runnerHold tag []) s = .next (s.taken.replying 0x8E tag [0])) ∧
      (r.state = .idle ∨ r.state = .stopped → exec (.runnerHold tag []) s = .next (s.taken.replying 0x8E tag [9]))) ∧
    (s.CanTake ⟨0x0F, tag, []⟩ →
      (r.state ≠ .suspended → exec (.runnerResume tag []) s = .next (s.taken.replying 0x8F tag [9])) ∧
      (∀ p, r.state = .suspended → r.resume = some p → p.index < 128 → storeWf s.str.store = true →
        let i := p.index
        let b := (s.stage i).bytes
        let out := exec (.runnerResume tag []) s
        let begun : Runner := { r with
          state := .running, current := some i, burstCount := 0, waitingOn := .none, placed := .none, resume := none
          pollTimer := none }
        let waits (w : WaitingOn) (n : Option Nat) (o : Placed) : Prop := out = .next ((s.taken.setRunner { begun with
          state := .waiting, waitingOn := w, secondsLeft := n, placed := o, pollPhase := 0
          pollTimer := some 500 }).replying 0x8F tag [0])
        let completes (u : State) (o : StageOutcome) : Prop := i < 127 → (s.stage (i + 1)).bytes.b0 = 0 →
          ∃ t, out = .next t ∧ ranOne s u t i (i + 1) o begun (s.taken.replying 0x8F tag [0]).blp
        (p.secondsLeft = none → p.placed = .none → stageRuns s out i begun 0x8F tag) ∧
        (∀ n, p.secondsLeft = some n → b.b0 = 5 → b.b5.toNat < 128 ∨ b.b5 = 0xFF →
          (condHolds s b.b1.toNat b.b2.toNat = some true → completes (consumed s b.b1.toNat b.b2.toNat) .done) ∧
          (condHolds s b.b1.toNat b.b2.toNat = some false → waits .condition (some n) .none)) ∧
        (b.b0 = 9 → 1 ≤ b.b1.toNat → b.b1.toNat ≤ 4 →
          (p.placed = .placed → waits .operationEnd none .placed) ∧
          (p.placed = .ended .done → completes s .done) ∧
          (p.placed = .ended .failed ∨ p.placed = .ended .aborted → completes s .failed)))) ∧
    (s.CanTake ⟨0x10, tag, []⟩ →
      (∀ i, (r.state = .waiting ∧ r.current = some i ∧ r.resume = none) ∨
          (r.state = .suspended ∧ ∃ n o, r.resume = some ⟨i, n, o⟩) →
        exec (.runnerStop tag []) s = .next (((s.taken.setRunner (stopped r .stoppedByBody (.at i))).setNotices
          { s.notices with runnerEnd := joined s.notices.runnerEnd ⟨r.list, .stoppedByBody, .at i⟩ }).replying
            0x90 tag [0])) ∧
      (r.state = .idle ∨ r.state = .stopped → exec (.runnerStop tag []) s = .next ((s.taken.setRunner { r with
        state := .stopped, stopCause := .stoppedByBody, stopIndex := .none }).replying 0x90 tag [0])))

/-- A poll while waiting on CONDITION (R147): true completes the WAIT DONE, a trip found consumed (R131); false
without a timeout polls on; false with one counts a second at every second poll and completes the WAIT TIMED_OUT at
the last. On SLOT (R149) the operation is offered again: an occupied slot waits on, a refusal completes FAILED, a
PURGE accepted completes DONE or waits on OPERATION END. On OPERATION END a poll only restarts the timer; the end of
the runner's own operation completes the OPERATE, DONE on DONE, FAILED on an ABORT (R150), and is kept in the resume
point while SUSPENDED (R152). What completes is said where the next place is EMPTY, at which the list stops (R140).
The model's choices in it: log 1, log 2, log 7, log 20, log 25, log 38. -/
def Obligations.PollTestsThenCountsTimeout : Prop :=
  (∀ (s : State) (i timeout : Nat) (c : Cond) (target : Option Nat), s.mail = .empty → storeWf s.str.store = true →
    s.runner.state = .waiting → s.runner.pollTimer.isSome = true → s.runner.current = some i → i < 128 →
    s.runner.waitingOn = .condition → decodeStage (s.stage i).bytes = some (.wait c timeout target) →
    let r := s.runner
    let polls (u : Runner) : Prop := exec .pollTimerExpiry s = .next (s.setRunner { u with pollTimer := some 500 })
    let completes (o : StageOutcome) (next : Nat) : Prop := next < 128 → next ≠ i → (s.stage next).bytes.b0 = 0 →
      ∃ t, exec .pollTimerExpiry s = .next t ∧ (t.stage i).outcome = o ∧
        t.runner.state = .stopped ∧ t.runner.stopCause = .stageUnavailable ∧ t.runner.stopIndex = .at next ∧
        ∀ w, t.watch w = if o = .done ∧ c = .watchTripped w
          then { s.watch w with state := .armed, count := 0 } else s.watch w
    ((testCond c s).2 = true → completes .done (i + 1)) ∧
    ((testCond c s).2 = false →
      (r.secondsLeft = none → polls r) ∧
      ∀ n, r.secondsLeft = some n →
        (r.pollPhase = 0 → polls { r with pollPhase := 1 }) ∧
        (r.pollPhase = 1 → 2 ≤ n → polls { r with pollPhase := 0, secondsLeft := some (n - 1) }) ∧
        (r.pollPhase = 1 → n = 1 → completes .timedOut (target.getD (i + 1))))) ∧
  (∀ (s : State) (i : Nat), s.mail = .empty → storeWf s.str.store = true → s.runner.state = .waiting →
    s.runner.current = some i → i < 127 → (s.stage (i + 1)).bytes.b0 = 0 → (s.stage i).bytes.b0 = 9 →
    1 ≤ (s.stage i).bytes.b1.toNat → (s.stage i).bytes.b1.toNat ≤ 4 →
    let r := s.runner
    let b := (s.stage i).bytes
    let arg := b.b3.toNat * 256 + b.b4.toNat
    let form := b.b1 = 3 ∨ b.b1 = 4 ∨ (1 ≤ arg ∧ arg ≤ 255)
    let k := max 1 (min 150 arg)
    let waits (w : WaitingOn) (p : Placed) : Runner := { r with
      waitingOn := w, secondsLeft := none, placed := p, pollPhase := 0, pollTimer := some 500 }
    let done (t : State) (o : StageOutcome) : Prop := t.stage i = stamped (s.stage i) o ∧
      t.runner = stopped { r with burstCount := 1, pollPhase := t.runner.pollPhase } .stageUnavailable (.at (i + 1))
    (r.waitingOn = .slot → r.pollTimer.isSome = true →
      (form → s.ops.slot.isSome = true → exec .pollTimerExpiry s = .next (s.setRunner (waits .slot .none))) ∧
      (¬form ∨ (b.b1 = 3 ∧ s.ops.slot = none ∧ ¬(s.psq.state = .run ∧ s.psq.mode = some .heat)) →
        ∃ t, exec .pollTimerExpiry s = .next t ∧ ranOne s s t i (i + 1) .failed r s.blp) ∧
      (b.b1 = 4 → s.ops.slot = none → s.aqu.policyMin ≤ 1000 → ∃ t, exec .pollTimerExpiry s = .next t ∧
        purgeBegun s t k ∧ (b.b2 = 0 → done t .done) ∧ (b.b2 ≠ 0 → t.runner = waits .operationEnd .placed))) ∧
    (r.waitingOn = .operationEnd →
      (r.pollTimer.isSome = true → exec .pollTimerExpiry s = .next (s.setRunner { r with pollTimer := some 500 })) ∧
      (∀ n tag, s.ops.slot.map (fun op => (op.work, op.source)) = some (.purge n, .runner) → s.aqu.purgeActive = true →
        s.CanTake ⟨0x12, tag, [0]⟩ → ∃ t, exec (.abortNow tag [0]) s = .next t ∧ done t .failed) ∧
      (∀ m n, s.ops.slot.map (fun op => (op.work, op.source, op.inHand)) = some (.home m, .runner, some n) →
        (∀ j ∈ Stepper.all, n.pos < j.pos → m.toNat.testBit j.pos = false) → (s.stepper n).state = .homing →
        ∃ t, exec (.homeSwitchClose n) s = .next t ∧
          done t (if s.ops.status.detail.maskPair.2 = 0 then .done else .failed)))) ∧
  (∀ (s : State) (p : ResumePoint) (n : Nat) (tag : Byte), s.mail = .empty → s.runner.state = .suspended →
    s.runner.resume = some p → p.placed = .placed →
    s.ops.slot.map (fun op => (op.work, op.source)) = some (.purge n, .runner) → s.aqu.purgeActive = true →
    s.CanTake ⟨0x12, tag, [0]⟩ → ∃ t, exec (.abortNow tag [0]) s = .next t ∧
      t.runner = { s.runner with resume := some { p with placed := .ended .aborted } })

/-! ## Trace Queue (09) -/

/-- TRACE CONTROL (R163, R160): the settings given are written, level and snapshot period brought into range, then
the action: NONE keeps the capture state, ARM arms, STOP stops, START captures with the period count 0 and a SNAPSHOT
at the tail (said where the queue has room and does not fill up); the reply carries what stands after it; the queue
and the drop count are kept. A policy above 1 and an action above 3 are refused with BAD_INDEX; a set bit of the
given byte above bit 2 is ignored (the model's choice, log 35). A pass while capturing at level 2 offers the plant's
and steppers' records, one PERIOD and, when the period count reaches the snapshot period, a SNAPSHOT right after it
(this order is the model's choice, log 16), the count then 0 (R160; said where the queue keeps room). The model's
choices in it: log 1, log 12, log 16, log 26, log 35. -/
def Obligations.TraceControlSetsCapture : Prop :=
  (∀ (s : State) (tag a g l po pe : Byte), s.CanTake ⟨0x16, tag, [a, g, l, po, pe]⟩ →
    let n := pe.toNat
    let round := if n < 12 then 8 else if n < 24 then 16 else if n < 48 then 32 else 64
    let level := max 1 (min 3 l.toNat)
    let t1 : Trq := { s.trq with
      level := if g.toNat.testBit 0 then level else s.trq.level
      policy := if g.toNat.testBit 1 then (if po = 0 then .discard else .complete) else s.trq.policy
      snapshotPeriod := if g.toNat.testBit 2 then round else s.trq.snapshotPeriod }
    let moved := g.toNat.testBit 0 = true ∧ level ≠ l.toNat ∨ g.toNat.testBit 2 = true ∧ round ≠ n
    let done (x : Trq) : Host.Outcome State Fault Refusal := .next ((s.taken.setTrq x).replying 0x96 tag
      ((if moved then 1 else 0) :: traceControlBytes (s.setTrq x)))
    let bad := g.toNat.testBit 1 = true ∧ 2 ≤ po.toNat
    let p := [a, g, l, po, pe]
    let refused : Host.Outcome State Fault Refusal := .next (s.taken.replying 0x96 tag [4])
    (bad →
      (a = 0 → exec (.traceControlNone tag p) s = refused) ∧ (a = 1 → exec (.traceControlArm tag p) s = refused) ∧
      (a = 2 → exec (.traceControlStart tag p) s = refused) ∧ (a = 3 → exec (.traceControlStop tag p) s = refused)) ∧
    (4 ≤ a.toNat →
      exec (.traceControlNone tag p) s = refused ∧ exec (.traceControlArm tag p) s = refused ∧
      exec (.traceControlStart tag p) s = refused ∧ exec (.traceControlStop tag p) s = refused) ∧
    (¬bad →
      (a = 0 → exec (.traceControlNone tag p) s = done t1) ∧
      (a = 1 → exec (.traceControlArm tag p) s = done { t1 with capture := .armed }) ∧
      (a = 3 → exec (.traceControlStop tag p) s = done { t1 with capture := .off }) ∧
      (a = 2 → s.trq.queue.length < 255 → exec (.traceControlStart tag p) s = done { t1 with
        capture := .capturing, periodCount := 0, queue := s.trq.queue ++ [⟨s.time, snapshotBody s⟩] }))) ∧
  (∀ s t : State, s.Calm → exec .controlPeriodExpiry s = .next t → s.trq.capture = .capturing → s.trq.level = 2 →
    t.trq.queue.length < 256 →
    let r := t.sha.last
    let n := min 64 (s.trq.periodCount + 1)
    let period : TraceRec := ⟨s.time, .period r.need r.a r.b r.pe r.qd r.totalShortfall r.heaterPower⟩
    ∃ before : List TraceRec,
      (∀ x ∈ before, x.stamp = s.time ∧ match x.body with
        | .plant .. | .actuator .. => True
        | _ => False) ∧
      (n < s.trq.snapshotPeriod →
        t.trq = { s.trq with queue := s.trq.queue ++ before ++ [period], periodCount := n }) ∧
      (s.trq.snapshotPeriod ≤ n → t.trq = { s.trq with
        queue := s.trq.queue ++ before ++ [period, ⟨s.time, snapshotBody t⟩], periodCount := 0 }))

/-- TRACE READ (R166): the longest run of records from the head that is no longer than the count asked for and fits
the 193 bytes of record room leaves the queue; when one left and records had been dropped, a GAP with the drop count
and the first drop time goes to the tail and both are cleared, the capture state kept (also where the GAP fills the
queue under COMPLETE: the model's choice, log 48); the reply carries what is left, the capture state, the drop count
and the records, and fits a payload; a count of 0 is answered DONE_CLAMPED, of an empty queue too (the model's
choice, log 49). The model's choices in it: log 1, log 48, log 49. -/
def Obligations.TraceReadTakesFromHead : Prop :=
  ∀ (s : State) (tag n : Byte), s.CanTake ⟨0x17, tag, [n]⟩ →
    let q := s.trq.queue
    let size (k : Nat) : Nat := ((q.take k).map fun r => r.body.size).sum
    ∃ k, k ≤ max 1 n.toNat ∧ k ≤ q.length ∧ size k ≤ 193 ∧
      (k = max 1 n.toNat ∨ k = q.length ∨ 193 < size (k + 1)) ∧
      let gap := 0 < k ∧ 0 < s.trq.dropCount
      let t1 : Trq := if gap then { s.trq with
        queue := q.drop k ++ [⟨s.time, .gap s.trq.dropCount (s.trq.firstDrop.getD 0xFFFFFFFF)⟩]
        dropCount := 0, firstDrop := none } else { s.trq with queue := q.drop k }
      let fields := u16 t1.queue.length ++ u8 t1.capture.code ++ u16 t1.dropCount ++ u8 k ++ (q.take k).flatMap TraceRec.bytes
      exec (.traceRead tag [n]) s = .next ((s.taken.setTrq t1).replying 0x97 tag ((if n = 0 then 1 else 0) :: fields)) ∧
      fields.length + 1 ≤ 200

/-- TRACE MARK (R165, R159, R161, R162): not kept while capture is not CAPTURING; placed at the tail while there is
room, at every level; dropped and counted from a full queue under DISCARD; a full queue under COMPLETE stops capture
and raises TRACE STATE. The reply tells which. The model's choices in it: log 1, log 12. -/
def Obligations.TraceMarkIsOffered : Prop :=
  ∀ (s : State) (tag hi lo : Byte), s.CanTake ⟨0x18, tag, [hi, lo]⟩ →
    let q := s.trq.queue
    let placed : Trq := { s.trq with queue := q ++ [⟨s.time, .mark (hi.toNat * 256 + lo.toNat) .body⟩] }
    let c : Instr := .traceMark tag [hi, lo]
    (s.trq.capture ≠ .capturing → exec c s = .next (s.taken.replying 0x98 tag [0, 2])) ∧
    (s.trq.capture = .capturing →
      (q.length < 256 → (s.trq.policy = .discard ∨ q.length < 255) →
        exec c s = .next ((s.taken.setTrq placed).replying 0x98 tag [0, 0])) ∧
      (q.length = 255 → s.trq.policy = .complete →
        exec c s = .next (((s.taken.setTrq { placed with capture := .fullStopped }).setNotices { s.notices with
          traceState := joined s.notices.traceState ⟨.fullStopped, .full, none, 256, s.trq.dropCount⟩ }).replying
            0x98 tag [0, 0])) ∧
      (256 ≤ q.length → s.trq.policy = .discard → exec c s = .next ((s.taken.setTrq { s.trq with
        dropCount := if s.trq.dropCount < 65535 then s.trq.dropCount + 1 else 65535
        firstDrop := if s.trq.dropCount = 0 then some s.time else s.trq.firstDrop }).replying 0x98 tag [0, 1])) ∧
      (256 ≤ q.length → s.trq.policy = .complete →
        exec c s = .next (((s.taken.setTrq { s.trq with capture := .fullStopped }).setNotices { s.notices with
          traceState := joined s.notices.traceState ⟨.fullStopped, .full, none, q.length, s.trq.dropCount⟩ }).replying
            0x98 tag [0, 1])))

/-! ## Body link, operations, resets (10, 11) -/

/-- A frame as the host sends it, with its check and escapes, is received as that frame (R169, R178, Table 11-1):
queued while the receive queue holds fewer than four, dropped and counted otherwise. The model's choices in it: log
6. -/
def Obligations.SentFrameIsReceived : Prop :=
  ∀ (s : State) (f : Frame), f.payload.length ≤ 200 →
    exec (.frameReceived f.wire) s = .next (s.setBlp (if s.blp.queue.length < 4
      then { s.blp with queue := s.blp.queue ++ [f] }
      else { s.blp with linkErrors := if s.blp.linkErrors < 65535 then s.blp.linkErrors + 1 else 65535 }))

/-- Frames lost on the body link (R169): bytes without a start byte are ignored; a frame whose check does not match,
or whose length is above 200, is counted as a link error, and so is a partial frame that a start byte or the line's
end cuts off; the frame after it is received. The model's choices in it: log 6. -/
def Obligations.LostFramesAreCounted : Prop :=
  ∀ (s : State) (f : Frame) (l : List Byte) (c0 c1 : Byte), f.payload.length ≤ 200 →
    let counted := s.setBlp { s.blp with
      linkErrors := if s.blp.linkErrors < 65535 then s.blp.linkErrors + 1 else 65535 }
    let header := [f.kind, f.tag, BitVec.ofNat 8 f.payload.length]
    (startByte ∉ l → exec (.frameReceived l) s = .next s) ∧
    ([c0, c1] ≠ checkBytes f.body →
      exec (.frameReceived (startByte :: (f.body ++ [c0, c1]).flatMap escaped)) s = .next counted) ∧
    (startByte ∉ l → 200 < c0.toNat →
      exec (.frameReceived (startByte :: ([f.kind, f.tag, c0].flatMap escaped ++ l))) s = .next counted) ∧
    (∀ k, k < 3 → s.blp.queue.length < 4 →
      exec (.frameReceived ((startByte :: (header.take k).flatMap escaped) ++ f.wire)) s =
        .next (counted.setBlp { counted.blp with queue := s.blp.queue ++ [f] })) ∧
    exec .partialFrameDiscarded s = .next counted

/-- The pending notices in kind order (Table 10-4, R180): merge count and content bytes of each that is pending,
and the set without it. -/
def Sys2Proof.Spec.noticeTable (n : NoticeSet) : List (Option (Nat × List Byte) × NoticeSet) :=
  let entry {α : Type} (o : Option (PendingNotice α)) (bytes : α → List Byte) : Option (Nat × List Byte) :=
    o.map fun p => (p.merged, bytes p.content)
  [(entry n.started fun c => u8 c.code, { n with started := none }),
    (entry n.operationEnd fun c => u8 (opKindCode (some c.kind)) ++ u8 c.source.code ++ u8 (OpState.ended c.state).code ++
      c.detail.bytes, { n with operationEnd := none }),
    (entry n.runnerEnd fun c => u8? (c.list.map Idx8.pos) ++ u8 c.cause.code ++ u8 c.index.code,
      { n with runnerEnd := none }),
    (entry n.stageNotice fun c => u16 c.value ++ u8 c.index, { n with stageNotice := none }),
    (entry n.watchTrip fun c => u8 c.watch.pos ++ u8 c.channel.pos ++ i16 c.value ++ u8 c.tripCount ++
      Idx8.all.flatMap fun i => u8 (c.states.get i).code, { n with watchTrip := none }),
    (entry n.plantTrip fun c => u8 (tripCauseCode c.cause) ++ u8 c.state.code ++ u8 (runModeCode c.mode) ++
      u8 c.wanted.code ++ u8 c.driveCode ++ u32 c.time ++ u8 c.tripCount, { n with plantTrip := none }),
    (entry n.lockout fun _ => [], { n with lockout := none }),
    (entry n.allowanceExpired fun c => u16 c, { n with allowanceExpired := none }),
    (entry n.sensorState fun c => u8 c.channel.pos ++ u8 c.quality.code ++ i16? c.value ++
      Channel.all.flatMap fun k => u8 (c.qualities.get k).code, { n with sensorState := none }),
    (entry n.actuatorFault fun c => u8 c.stepper.pos ++ u8 c.cause.code ++ u16 c.count, { n with actuatorFault := none }),
    (entry n.traceState fun c => u8 c.state.code ++ u8 c.cause.code ++ u8? (c.watch.map Idx8.pos) ++ u16 c.records ++
      u16 c.dropCount, { n with traceState := none }),
    (entry n.recircHoldEnd fun c => u8 c.cause.code ++ u16 c.length, { n with recircHoldEnd := none })]

/-- Sending (R177): the reply waiting goes first; without one, and with the hold flag clear, the pending notice first
in kind order goes with tag 0, its merge count and its content (the watch byte of a TRACE STATE without a watch, as
with cause FULL, is 0xFF: the model's choice, log 50), and leaves the set, the others kept; otherwise nothing is
sent. What goes out is the frame's bytes: start byte, then header, payload and check, escaped (R178). NOTICE HOLD and
NOTICE RELEASE set and clear the flag. The model's choices in it: log 1, log 5, log 12, log 50. -/
def Obligations.RepliesThenNoticesAreSent : Prop :=
  ∀ (s : State) (tag : Byte),
    (∀ f, s.blp.reply = some f →
      exec .replySend s = .next ((s.setBlp { s.blp with reply := none }).setBodyOut (s.bodyOut ++ f.wire)) ∧
      exec .noticeSend s = .next s) ∧
    (s.blp.reply = none → exec .replySend s = .next s) ∧
    (s.blp.holdFlag = true ∨ (∀ x ∈ noticeTable s.notices, x.1 = none) → exec .noticeSend s = .next s) ∧
    (s.blp.reply = none → s.blp.holdFlag = false → ∀ k merged content rest,
      (noticeTable s.notices)[k]? = some (some (merged, content), rest) →
      (∀ j x, j < k → (noticeTable s.notices)[j]? = some x → x.1 = none) →
      exec .noticeSend s = .next ((s.setNotices rest).setBodyOut (s.bodyOut ++
        (⟨BitVec.ofNat 8 (0x40 + k), 0, BitVec.ofNat 8 merged :: content⟩ : Frame).wire))) ∧
    (∀ f : Frame, let body := f.kind :: f.tag :: BitVec.ofNat 8 f.payload.length :: f.payload
      f.wire = 0xA5 :: (body ++ checkBytes body).flatMap fun b =>
        if b = 0xA5 then [0xA6, 0x85] else if b = 0xA6 then [0xA6, 0x86] else [b]) ∧
    (s.CanTake ⟨0x19, tag, []⟩ → exec (.noticeHold tag []) s =
      .next ((s.taken.setBlp { s.taken.blp with holdFlag := true }).replying 0x99 tag [0])) ∧
    (s.CanTake ⟨0x1A, tag, []⟩ → exec (.noticeRelease tag []) s =
      .next ((s.taken.setBlp { s.taken.blp with holdFlag := false }).replying 0x9A tag [0]))

/-- Before a request reaches its block (R170, R179): a kind that is no request kind is answered UNKNOWN_KIND, a
length that Table 11-2 does not give the kind BAD_LENGTH, and nothing else changes. A CONFIG WRITE of a table that
Table 11-6 does not name is answered BAD_INDEX by each of the nine rows (the model's choice, log 26), one whose table
has another length BAD_LENGTH. While a reply waits no request is taken. The model's choices in it: log 1, log 13, log
26. -/
def Obligations.RefusedBeforeTheBlock : Prop :=
  (∀ (s : State) (k tag : Byte) (p : List Byte), k.toNat = 0 ∨ 0x1C < k.toNat → s.CanTake ⟨k, tag, p⟩ →
    ∃ kind, (k.toNat < 0x80 → kind = k + 0x80) ∧
      exec (.unknownKindRequest k tag p) s = .next (s.taken.replying kind tag [2])) ∧
  (∀ (c : Instr) (s : State) (f : Frame), s.mail = .empty → c.requestForm = some ⟨f, false⟩ → s.CanTake f →
    exec c s = .next (s.taken.replying (f.kind + 0x80) f.tag [3])) ∧
  (∀ (c : Instr) (s : State) (f : RequestForm), c.requestForm = some f → s.blp.reply.isSome = true →
    exec c s = .next s) ∧
  (∀ (s : State) (tag x : Byte) (p : List Byte), s.CanTake ⟨0x07, tag, x :: p⟩ →
    let rows : List (Nat × Nat × Instr) := [(1, 10, .configWriteGains tag (x :: p)),
      (2, 6, .configWriteWeights tag (x :: p)), (3, 6, .configWriteKmax tag (x :: p)),
      (4, 24, .configWriteFlapLimits tag (x :: p)), (5, 36, .configWritePerformanceTable tag (x :: p)),
      (6, 16, .configWriteBlowerStageTable tag (x :: p)), (7, 10, .configWritePlantSettings tag (x :: p)),
      (8, 8, .configWriteStepTimes tag (x :: p)), (9, 64, .configWriteChannelConversion tag (x :: p))]
    ∀ row ∈ rows,
      (x = 0 ∨ 9 < x.toNat → exec row.2.2 s = .next (s.taken.replying 0x87 tag [4])) ∧
      (x.toNat = row.1 → p.length ≠ row.2.1 → exec row.2.2 s = .next (s.taken.replying 0x87 tag [3])))

/-- A refusal changes no state in any block (R171): a request answered with any code but DONE and DONE_CLAMPED leaves
all but the port's queue and reply as it was, and the reply carries the code alone. The model's choices in it: log 1. -/
def Obligations.RefusalChangesNothing : Prop :=
  ∀ (c : Instr) (s t : State) (f : RequestForm) (r : Frame) (code : Byte) (rest : List Byte),
    c.requestForm = some f → s.CanTake f.frame → s.Calm → exec c s = .next t → t.blp.reply = some r →
    r.payload = code :: rest → 2 ≤ code.toNat →
    rest = [] ∧ t = s.taken.replying r.kind f.frame.tag [code]

/-- The fields of a zone record as ZONE READ and STATUS ZONES return them (Table 1-2, Table 11-5). -/
def Sys2Proof.Spec.zoneFields (r : ZoneRec) : List Byte :=
  u8 r.mode.code ++ i16 r.setpoint ++ i16? r.measured ++ u8 r.sensorUse.code ++ i16 r.integrator ++ i16 r.demand
    ++ u8 r.weight ++ u8 r.occupancy ++ flag r.doorFreeze ++ flag r.inBand ++ u16 r.share ++ i16 r.shortfall
    ++ u8 r.granted ++ u8 r.kmax ++ u16 r.flapMin ++ u16 r.flapMax ++ flag r.flapUsable

/-- The time left on a timer (R180): units of 100 ms rounded up, 0xFFFF while stopped or expired. -/
def Sys2Proof.Spec.leftOn (x : Timer) : List Byte := u16? (x.map fun ms => (ms + 99) / 100)

/-- The fields of each STATUS section in the order its chapter lists them (R59, R85, R99, R117, R126, R134, R157, R167,
R168, R170, R180). -/
def Sys2Proof.Spec.sectionFields (s : State) (code : Nat) : Option (List Byte) :=
  let p := s.psq
  let f := p.faultRecord
  let d := s.dln
  let r := s.runner
  let suspended := decide (r.state = .suspended)
  match code with
  | 0 => some (u16 s.blp.linkErrors ++ u8 s.blp.queue.length ++ flag s.blp.holdFlag ++ s.notices.flags.flatMap flag
      ++ u8 (opKindCode s.ops.status.kind) ++ u8 (sourceCode s.ops.status.source) ++ u8 s.ops.status.state.code
      ++ s.ops.status.detail.bytes)
  | 1 => some ((Zone.all.flatMap fun z => zoneFields (s.zone z)) ++ flag (s.door .d1).isOpen ++ flag (s.door .d2).isOpen
      ++ u16 s.sha.effective)
  | 2 => some (u8 p.state.code ++ u8 (runModeCode p.mode) ++ u8 p.wanted.code ++ u8 p.valve.code
      ++ u8 (if p.fanOn then 0 else 1) ++ flag p.startPending
      ++ u8 (if p.startPending = false then 0 else if p.antiShortCycle.isSome then 1 else if p.eevFaulted then 2
        else if p.pSuc.quality = .lost ∨ p.pDis.quality = .lost then 3 else 0)
      ++ leftOn p.antiShortCycle ++ leftOn (match p.dwell with
        | .running ms => some ms
        | .stopped | .expired => none)
      ++ leftOn p.settleTimer ++ leftOn p.tripTimer ++ leftOn p.defrostTimer ++ u16 p.frost ++ u16 p.heatRunCount
      ++ u8 p.defrostMark.code ++ u8 (defrostEndCode p.lastDefrostEnd) ++ u16 p.command ++ u16 p.eevTarget
      ++ u8 (tripCauseCode f.cause) ++ u8 f.state.code ++ u8 (runModeCode f.mode) ++ u8 f.wanted.code ++ u8 f.driveCode
      ++ u32 f.time ++ u8 f.tripCount ++ u8 p.tripHistory.length)
  | 3 => some (u8 d.link.code ++ u8 d.attempts ++ u8 d.failure.code ++ u16 d.powerSent ++ u8 d.lastStop.code
      ++ flag d.compressorRunning ++ (match d.lastStatus with
        | some x => u16 x.speed ++ u16 x.power ++ i16 x.temperature
            ++ u32 ((s.time + (2 ^ 32 - x.time % 2 ^ 32)) % 2 ^ 32)
        | none => [0xFF, 0xFF, 0xFF, 0xFF, 0x80, 0x00, 0xFF, 0xFF, 0xFF, 0xFF])
      ++ (match d.lastFault with
        | some x => u8 x.code ++ u32 x.time
        | none => [0xFF, 0xFF, 0xFF, 0xFF, 0xFF]) ++ u16 d.errorCount)
  | 4 => some (u8 s.aqu.vent.code ++ u16 s.aqu.phi ++ u16 s.aqu.damper ++ u16 s.aqu.boost ++ flag s.aqu.holdActive
      ++ leftOn s.aqu.holdTimer ++ u8 s.aqu.humidity.code ++ flag s.aqu.purgeActive ++ u8 s.aqu.periodsRun)
  | 5 => some ((Stepper.all.flatMap fun n => let x := s.stepper n
        u8 x.state.code ++ u16? x.position ++ u16 x.target ++ flag x.faulted ++ u8 x.slipCount ++ u16 x.stepsMoved
          ++ flag x.verifyDue)
      ++ (Zone.all.flatMap fun z => u8 (s.act.stepsOn.get z))
      ++ Deck.all.flatMap fun k => let x := s.deck k
        u8 x.stage ++ flag x.running ++ leftOn x.spinUp ++ leftOn x.cutTimer ++ leftOn x.afterRun
          ++ flag (decide (x.supply = .lost)) ++ u8 x.idleCount)
  | 6 => some (Channel.all.flatMap fun c => let x := s.channel c
        u8 x.quality.code ++ i16? x.value ++ flag x.clamped ++ u16? x.lastRaw ++ leftOn x.lossTimer ++ u16 x.faultCount)
  | 7 => some (Idx8.all.flatMap fun i => let x := s.watch i
        u8 x.state.code ++ u8 x.count ++ u8 x.tripCount)
  | 8 => some (u8 r.state.code ++ u8? (r.list.map Idx8.pos) ++ flag r.suspendOnTrip ++ u8? r.current ++ u8 r.waitingOn.code
      ++ u16? r.secondsLeft ++ u8? (if suspended then r.resume.map (·.index) else none)
      ++ u16? (if suspended then r.resume.bind (·.secondsLeft) else none) ++ u8 r.stopCause.code ++ u8 r.stopIndex.code
      ++ Idx4.all.flatMap fun k => u8 (s.str.counters.get k))
  | 9 => some (u8 s.trq.capture.code ++ u8 s.trq.level ++ u8 s.trq.policy.code ++ u8 s.trq.snapshotPeriod
      ++ u8 s.trq.periodCount ++ u16 s.trq.queue.length ++ u16 s.trq.dropCount ++ u32? s.trq.firstDrop)
  | _ => none

/-- A configuration table by its code, laid out as in CONFIG WRITE (R170, Table 11-6). -/
def Sys2Proof.Spec.tableFields (s : State) (code : Nat) : Option (List Byte) :=
  let g := s.zrg.gains
  let x := s.psq.settings
  match code with
  | 1 => some (u16 g.kp ++ u16 g.ki ++ u16 g.imax ++ u16 g.deadband ++ u16 g.band)
  | 2 => some (Zone.all.flatMap fun z => u8 (s.zone z).weight)
  | 3 => some (Zone.all.flatMap fun z => u8 (s.zone z).kmax)
  | 4 => some (Zone.all.flatMap fun z => u16 (s.zone z).flapMin ++ u16 (s.zone z).flapMax)
  | 5 => some (PerfIx.all.flatMap fun i => let y := s.sha.perf.get i
      i16 y.temp ++ u16 y.heating ++ u16 y.cooling)
  | 6 => some (BlowerIx.all.flatMap fun i => u16 (s.sha.blowers.get i).power ++ u16 (s.sha.blowers.get i).airflow)
  | 7 => some (u16 x.dwell ++ u16 x.dischargeLimit ++ u16 x.suctionLimit ++ u16 x.verifyDifference ++ u16 x.defrostClear)
  | 8 => some (Stepper.all.flatMap fun n => u8 (s.stepper n).stepTime)
  | 9 => some (Channel.all.flatMap fun c => i16 (s.channel c).offset ++ u16 (s.channel c).gain)
  | _ => none

/-- Reading requests (R6, R41, R128, R136, R170) answer DONE with the fields as they stand, in the order and at the
widths of chapter 11, and change nothing; a section, zone, table, watch or first index out of range is answered
BAD_INDEX. The model's choices in it: log 1, log 12, log 23, log 25, log 29, log 36, log 41, log 45, log 46, log 47. -/
def Obligations.ReadsAnswerAndChangeNothing : Prop :=
  ∀ (s : State) (tag x n : Byte),
    let reads (k : Byte) (p : List Byte) (c : Instr) (fields : Option (List Byte)) : Prop :=
      s.CanTake ⟨k, tag, p⟩ → exec c s = .next (s.taken.replying (k + 0x80) tag (match fields with
        | some b => 0 :: b
        | none => [4]))
    reads 0x01 [x] (.status tag [x]) (sectionFields s.taken x.toNat) ∧
    reads 0x03 [x] (.zoneRead tag [x]) ((Zone.at x.toNat).map fun z => zoneFields (s.zone z)) ∧
    (let r := s.sha.last
     let a := s.sha
     reads 0x06 [] (.shareRead tag []) (some (u32 r.time ++ u16 r.need ++ u16 r.a ++ u16 r.b ++ u16 r.pa ++ u16 r.pe
       ++ u32 r.qd ++ u8 r.direction.code ++ u8 r.wanted.code ++ u8 r.starvedCount ++ flag r.hold ++ flag r.shed
       ++ u8 r.stages.upper ++ u8 r.stages.lower
       ++ (Zone.all.flatMap fun z => let y := r.zones.get z
         u16 y.share ++ i16 y.shortfall ++ u8 y.grant)
       ++ i16 r.totalShortfall ++ u16 r.heaterPower
       ++ ([0, 1, 2, 3, 4, 5].flatMap fun i => match r.order[i]? with
         | some z => u8 z.pos
         | none => [0xFF])
       ++ u16 a.hostValue ++ u16 a.inUse ++ u8 a.allowState.code ++ u16 a.age ++ u16? a.runnerCap))) ∧
    reads 0x08 [x] (.configRead tag [x]) ((tableFields s x.toNat).map (x :: ·)) ∧
    reads 0x14 [x] (.watchRead tag [x]) ((Idx8.at x.toNat).map fun i => let w := s.watch i
      u8 w.channel.pos ++ i16 w.threshold ++ u8 w.direction.code ++ u16 w.hysteresis ++ u8 w.persistence
        ++ u8 ((if w.notify then 1 else 0) + (if w.traceStart then 2 else 0) + (if w.traceStop then 4 else 0))
        ++ flag w.autoRearm ++ u8 w.state.code ++ u8 w.count ++ u8 w.tripCount ++ i16? w.tripValue) ∧
    reads 0x0B [x, n] (.stagesRead tag [x, n]) (if x.toNat < 128 then
      let k := min n.toNat (min 19 (128 - x.toNat))
      some (x :: BitVec.ofNat 8 k :: (List.range k).flatMap fun j => let y := s.stage (x.toNat + j)
        [y.bytes.b0, y.bytes.b1, y.bytes.b2, y.bytes.b3, y.bytes.b4, y.bytes.b5, y.bytes.b6, y.bytes.b7]
          ++ u8 y.outcome.code ++ u8 y.passes) else none)

/-- OPERATION in an EMPTY slot (R173): HOME hands the lowest stepper of the mask to the Actuator Driver, which homes
it from any state (R105); VERIFY likewise, from IDLE or SEEKING, or taking over an automatic verify (R107). With the
home switch CLOSED both end at once, said where the mask names one stepper: the home at position 0, the verify judged
with count 0 (R106, R108). A VERIFY whose steppers are all UNHOMED or in FAULT is NOT_REFERENCED for each and ends
FAILED at once, no stepper touched (R107, R174). DEFROST starts its sequence in RUN HEAT (R74); PURGE starts with its
periods clamped to 1..150, an ACTIVE hold ending (R57). Refused, in this order: an empty or too wide stepper mask
with BAD_INDEX, an occupied slot with SLOT_BUSY, a DEFROST outside RUN HEAT with NOT_APPLICABLE; nothing else
changes. The model's choices in it: log 1, log 17, log 18, log 19, log 20, log 25, log 26, log 30, log 31, log 38. -/
def Obligations.OperationTakesSlotOrIsRefused : Prop :=
  (∀ (s : State) (tag x y : Byte), s.Calm → s.ops.slot = none → s.aqu.policyMin ≤ 1000 →
    let lowest (n : Stepper) : Prop :=
      y.toNat.testBit n.pos = true ∧ ∀ m : Stepper, m.pos < n.pos → y.toNat.testBit m.pos = false
    let done (k : OpKind) (e : EndState) (a b : BitVec 8) (t : State) : Prop := t.blp.reply = some ⟨0x91, tag, [0]⟩ ∧
      t.ops = ⟨none, ⟨some k, some .body, .ended e, .masks a b⟩⟩ ∧
      t.notices.operationEnd = joined s.notices.operationEnd ⟨k, .body, e, .masks a b⟩
    (∀ n, lowest n →
      let r := { s.stepper n with count := 0, takenOver := false }
      (s.CanTake ⟨0x11, tag, [1, 0, y]⟩ →
        (r.switch = .opened → exec (.operationHome tag [1, 0, y]) s =
          .next (((s.taken.setStepper n (firstStepTimed { r with
            state := .homing, refKind := .home, limit := travel n + 40, position := none })).setOps
              (slotTaken .body (.home y) (some n))).replying 0x91 tag [0])) ∧
        (r.switch = .closed → y = bitFor n → ∃ t, exec (.operationHome tag [1, 0, y]) s = .next t ∧
          t.stepper n = fromZero { r with limit := travel n + 40, faulted := false } (t.stepper n).target ∧
          (n ≠ .eev ∨ r.faulted = false → (t.stepper n).target = r.target) ∧
          usable t n = (if r.faulted then true else usable s n) ∧ done .home .done y 0 t)) ∧
      (s.CanTake ⟨0x11, tag, [2, 0, y]⟩ →
        (∀ p, r.state = .idle ∨ r.state = .seeking → r.position = some p →
          let v := { r with prior := p, limit := p + 40 }
          (r.switch = .opened → exec (.operationVerify tag [2, 0, y]) s =
            .next (((s.taken.setStepper n (firstStepTimed { v with
              state := .verifying, refKind := .operationVerify })).setOps
                (slotTaken .body (.verify y) (some n))).replying 0x91 tag [0])) ∧
          (r.switch = .closed → y = bitFor n → ∃ t, exec (.operationVerify tag [2, 0, y]) s = .next t ∧
            t.stepper n = fromZero
              { v with slipCount := if 4 < p then min 255 (r.slipCount + 1) else r.slipCount } r.target ∧
            done .verify .done (if 4 < p then y else 0) 0 t)) ∧
        (r.state = .verifying → r.refKind = .automaticVerify → exec (.operationVerify tag [2, 0, y]) s =
          .next (((s.taken.setStepper n { s.stepper n with refKind := .operationVerify, takenOver := true }).setOps
            (slotTaken .body (.verify y) (some n))).replying 0x91 tag [0])))) ∧
    (s.CanTake ⟨0x11, tag, [2, 0, y]⟩ → y ≠ 0 → (∀ n : Stepper, y.toNat.testBit n.pos = true →
        (s.stepper n).state = .unhomed ∨ (s.stepper n).state = .fault) →
      exec (.operationVerify tag [2, 0, y]) s = .next (((s.taken.setOps
        ⟨none, ⟨some .verify, some .body, .ended .failed, .masks 0 y⟩⟩).setNotices { s.notices with
          operationEnd := joined s.notices.operationEnd ⟨.verify, .body, .failed, .masks 0 y⟩ }).replying 0x91 tag [0])) ∧
    (s.psq.state = .run → s.psq.mode = some .heat → s.CanTake ⟨0x11, tag, [3, x, y]⟩ →
      ∃ t, exec (.operationDefrost tag [3, x, y]) s = .next t ∧ plantOnly s t ∧ stopSent s t ∧
        t.psq = rampedDown { s.psq with defrostMark := .operation } ∧ t.ops = slotTaken .body .defrost none ∧
        t.blp.reply = some ⟨0x91, tag, [0]⟩) ∧
    (s.CanTake ⟨0x11, tag, [4, x, y]⟩ →
      let n := x.toNat * 256 + y.toNat
      let k := max 1 (min 150 n)
      let a := { s.aqu with purgeActive := true, purgeCount := k, periodsRun := 0 }
      ∃ t, exec (.operationPurge tag [4, x, y]) s = .next t ∧ t.ops = slotTaken .body (.purge k) none ∧
        t.blp.reply = some ⟨0x91, tag, [if k = n then 0 else 1]⟩ ∧ t.aqu.damper = 400 ∧
        t.aqu = airDecided s (if a.holdActive then { a with
          holdActive := false, holdTimer := none, holdEnd := some .purge } else a) ∧
        t.notices.recircHoldEnd = (if a.holdActive then joined s.notices.recircHoldEnd ⟨.purge, holdSeconds s⟩
          else s.notices.recircHoldEnd))) ∧
  (∀ (s : State) (tag k x y : Byte), s.mail = .empty → s.CanTake ⟨0x11, tag, [k, x, y]⟩ →
    let c : Instr := match k.toNat with
      | 1 => .operationHome tag [k, x, y]
      | 2 => .operationVerify tag [k, x, y]
      | 3 => .operationDefrost tag [k, x, y]
      | _ => .operationPurge tag [k, x, y]
    let form := (1 ≤ k.toNat ∧ k.toNat ≤ 2 ∧ x = 0 ∧ y ≠ 0) ∨ k = 3 ∨ k = 4
    (¬form → exec c s = .next (s.taken.replying 0x91 tag [4])) ∧
    (form → s.ops.slot.isSome = true → exec c s = .next (s.taken.replying 0x91 tag [6])) ∧
    (k = 3 → s.ops.slot = none → ¬(s.psq.state = .run ∧ s.psq.mode = some .heat) →
      exec c s = .next (s.taken.replying 0x91 tag [9])))

/-- ABORT (R175, R176): in an EMPTY slot either timing resets the status record and withdraws a pending OPERATION
END; a timing above 1 is refused; AT-BOUNDARY of a HOME, VERIFY or PURGE marks the abort pending and changes nothing
else; NOW ends a PURGE at once (R58), a HOME with its stepper in hand left UNHOMED, or in FAULT where it was faulted,
and a VERIFY (R109): one taken over goes on as automatic, a stepper of known position is IDLE and seeks its target,
or verifies at once with a verify due, one of UNKNOWN position is UNHOMED. The model's choices in it: log 1, log 18,
log 19, log 26, log 32. -/
def Obligations.AbortActsBySlotAndKind : Prop :=
  ∀ (s : State) (tag b : Byte), s.Calm → s.CanTake ⟨0x12, tag, [b]⟩ →
    let emptied := ((s.taken.setOps ⟨none, ⟨none, none, .ended .done, .zero⟩⟩).setNotices
      { s.notices with operationEnd := none }).replying 0x92 tag [0]
    let aborted (t : State) (op : Operation) (d : Detail) : Prop :=
      t.ops = ⟨none, ⟨some op.work.kind, some op.source, .ended .aborted, d⟩⟩ ∧
      t.notices.operationEnd = joined s.notices.operationEnd ⟨op.work.kind, op.source, .aborted, d⟩
    (s.ops.slot = none →
      (b = 0 → exec (.abortNow tag [b]) s = .next emptied) ∧ (b = 1 → exec (.abortAtBoundary tag [b]) s = .next emptied)) ∧
    (2 ≤ b.toNat → exec (.abortNow tag [b]) s = .next (s.taken.replying 0x92 tag [4]) ∧
      exec (.abortAtBoundary tag [b]) s = .next (s.taken.replying 0x92 tag [4])) ∧
    (∀ op, s.ops.slot = some op →
      (b = 1 → op.work ≠ .defrost → exec (.abortAtBoundary tag [b]) s = .next ((s.taken.setOps { s.ops with
        slot := some { op with abortPending := true } }).replying 0x92 tag [0])) ∧
      (b = 0 → ∀ n, op.work = .purge n → s.aqu.purgeActive = true → s.aqu.policyMin ≤ 1000 →
        ∃ t, exec (.abortNow tag [b]) s = .next t ∧ t.aqu = airDecided s { s.aqu with purgeActive := false } ∧
          aborted t op (.periods s.aqu.periodsRun)) ∧
      (b = 0 → ∀ m n, op.work = .home m ∨ op.work = .verify m → op.inHand = some n →
        ∃ t, exec (.abortNow tag [b]) s = .next t ∧ aborted t op s.ops.status.detail ∧
          t.act = (s.setStepper n (abortedStepper (s.stepper n))).act))

/-- The plant's record after a warm restart (R86): RUN and START enter RAMPDOWN, which takes the restart mark as
RAMPDOWN does; EQUALIZE and SHIFT are STOPPED with their timer stopped; wanted mode, start pending, verify window and low
suction count go back; a defrost sequence ends ABORTED. -/
def Sys2Proof.Spec.plantRestarted (x : Psq) : Psq :=
  let q : Psq := { x with
    wanted := .idle, startPending := false, command := 0, verifyWindow := .closed, lowSuctionCount := 0 }
  let p : Psq := match x.state with
    | .run | .start => { rampedDown q with restartMark := true }
    | .rampdown => { q with restartMark := true }
    | .equalize | .shift => { q with state := .stopped, dwell := .stopped, settleTimer := none }
    | .stopped | .tripped | .lockout => q
  if x.defrostMark = .none then p else defrostOver p .aborted x.frost

/-- A warm restart (R172 with R21, R45, R60, R86, R118, R127, R156, R167, R174), block by block, with all that it
keeps. Zones are OFF with demand, integrator, share, shortfall and grants 0. Allocator: direction, counts, hold, cap
and command go back, the allowance record is kept, A is the allowance in use, and stages that no longer fit it are
lowered (R42). Air unit: hold, boost, humidity and PURGE go back, and the damper is decided anew. Plant: R86; the
drive is handed power 0 and, from RUN and START, a stop, and is kept otherwise. Actuator Driver: steps on are 0, and
a deck whose heaters were on starts its after-run (R114); steppers, step times, blowers, spin-ups and cuts go on, but
for the targets handed out and the stepper in hand, which is aborted (R109). Watches are DISARMED, the runner and the
trace go back, store, entries and counters are kept. The slot's operation ends ABORTED with its detail. The reply is
DONE and STARTED with cause WARM_RESTART the only notice pending. The model's choices in it: log 1, log 4, log 11,
log 14, log 15, log 18, log 19, log 20, log 21, log 32, log 33, log 37. -/
def Obligations.RestartSetsAndKeeps : Prop :=
  ∀ (s : State) (tag : Byte), s.CanTake ⟨0x1C, tag, []⟩ → ∃ t, exec (.restart tag []) s = .next t ∧
    (∀ z, t.zone z = { s.zone z with
      mode := .off, integrator := 0, demand := 0, share := 0, shortfall := 0, granted := 0, inBand := false }) ∧
    t.zrg = { s.zrg with zones := t.zrg.zones } ∧
    (let a := s.sha.inUse
     let after (d : Deck) : Timer := afterRunOf (deckOn d s.act.stepsOn.get) 0 (s.deck d).afterRun
     let b := blowerPower s.sha.blowers t.sha.stages
     t.sha = { s.sha with
       direction := .idle, idleCount := 0, flipCount := 0, starvedCount := 0, starvationHold := false, runnerCap := none
       command := 0, effective := a, stages := t.sha.stages
       last := if t.sha.stages = s.sha.stages then s.sha.last else { s.sha.last with
         a := a, b := b, pa := a - b, pe := 0, heaterPower := 0, shed := true
         zones := .ofFn fun z => { s.sha.last.zones.get z with grant := 0 } } } ∧
     (blowerPower s.sha.blowers s.sha.stages ≤ a → t.sha.stages = s.sha.stages) ∧
     (a < blowerPower s.sha.blowers s.sha.stages →
       stagesFit s a (fun d => floorOf s (after d) d) s.sha.stages t.sha.stages) ∧
     (∀ d : Deck,
       let r := { s.deck d with afterRun := after d }
       let c := t.sha.stages.get d
       t.deck d = if c < s.sha.stages.get d then deckMoved r (if 0 < c then c
         else if 0 < r.stage ∧ (r.afterRun.isSome = true ∨ r.idleCount < 9) then 1 else 0) else r)) ∧
    (∀ z, t.act.stepsOn.get z = 0 ∧ t.act.relays.get z = outputsOf s z) ∧
    t.aqu = airDecided s { s.aqu with
      holdActive := false, holdTimer := none, boost := 0, purgeActive := false, humidity := .normal, dryCount := 0
      normalCount := 0 } ∧
    t.psq = plantRestarted s.psq ∧
    (let u := powerHanded s 0
     let stops := s.psq.state = .run ∨ s.psq.state = .start
     (stops → stopSent u t) ∧ (¬stops → t.dln = s.dln ∧ t.driveOut = s.driveOut) ∧
     ∀ n : Stepper,
       let r := s.stepper n
       let held := if s.psq.state = .run then eevFor s.psq.mode 0 else s.psq.eevTarget
       let eev := eevHanded r s.psq.eevTarget held
       let x : StepperRec := match n with
         | .fad => if t.aqu.damper = s.aqu.damper then r else targetTaken r (min 400 t.aqu.damper)
         | .eev => if stops then eevHanded eev held 100 else eev
         | _ => r
       let inHand := ∃ op, s.ops.slot = some op ∧ (op.work.kind = .home ∨ op.work.kind = .verify) ∧ op.inHand = some n
       (inHand → t.stepper n = abortedStepper x) ∧ (¬inHand → t.stepper n = x)) ∧
    (s.ops.slot = none → t.ops = s.ops) ∧
    (∀ op, s.ops.slot = some op → t.ops = ⟨none, ⟨some op.work.kind, some op.source, .ended .aborted, match op.work with
      | .home _ | .verify _ => s.ops.status.detail
      | .defrost => .cause .aborted
      | .purge _ => .periods s.aqu.periodsRun⟩⟩) ∧
    (∀ i, t.watch i = { s.watch i with state := .disarmed, count := 0 }) ∧
    t.str = { s.str with runner := Runner.reset } ∧ t.trq = Trq.reset ∧ t.ssc = s.ssc ∧ t.time = s.time ∧
    t.bodyOut = s.bodyOut ∧
    t.blp = { s.blp with queue := s.blp.queue.tail, reply := some ⟨0x9C, tag, [0]⟩, holdFlag := false
                         notices := { NoticeSet.empty with started := some ⟨.warmRestart, 0⟩ } }

/-- POWER_ON (R172, R100): from every state the part stands as after reset, the home switches as read; STARTED with
cause POWER_ON is the only notice pending. (The queue of waiting commands and what has been sent are the model's own:
log 24.) The model's choices in it: log 24. -/
def Obligations.PowerOnReturnsToReset : Prop :=
  ∀ (s : State) (sw : Steppers Contact), ∃ t, exec (.powerOn sw) s = .next t ∧
    (∀ n, (t.stepper n).switch = sw.get n) ∧
    t.notices = { NoticeSet.empty with started := some ⟨.powerOn, 0⟩ } ∧
    { t with pending := [], bodyOut := [], driveOut := []
             act := { t.act with steppers := .ofFn fun n => { t.stepper n with switch := .opened } } } = State.reset ∧
    t.pending = s.pending ∧ t.bodyOut = s.bodyOut ∧ t.driveOut = s.driveOut

/-! ## Laws that every step keeps -/

/-- A property that no step breaks: whatever command waits, and with none waiting as time passes (the
model's choice, log 3). -/
def Sys2Proof.Spec.Kept (law : State → Prop) : Prop := ∀ s t : State, law s → step s = .next t → law t

/-- Every zone's demand stays within -1000..+1000 and its integrator within -Imax..+Imax, its settings in their
ranges (the law of R9, Table 1-2). The compressor command stays 0 or 1500..15 000 W, stages 0..4, the allowance in
use at most 40 000 W; A stays the lower of it and the runner cap; the record is FRESH exactly while its validity
timer runs (R22 to R25, R34). -/
def Obligations.ZonesAndAllocatorStayInRange : Prop :=
  (Kept State.ZonesInRange) ∧
  (Kept fun s => s.sha.Lawful)

/-- Outside a recirculation hold the damper target stays at or above what the policy minimum asks (the law of R50).
Hold and PURGE are never both ACTIVE, the hold timer runs exactly while the hold is ACTIVE, and FAD has the damper
target (R50, R52, R54, R57, R111). -/
def Obligations.DamperStaysAboveMinimum : Prop :=
  (Kept fun s => s.aqu.policyMin ≤ 1000 ∧ (s.aqu.holdActive = false → s.aqu.policyMin * 400 / 1000 ≤ s.aqu.damper)) ∧
  (Kept State.AirLaw)

/-- A running mode stands in START and RUN only, with the valve on its side; the sequencer's timers run in their own
states; at most three trips are remembered, three only in LOCKOUT; the Drive Line's timers and link go with the
sequencer's state (the law of R66, R69, R70, R75, R80, R82, Table 5-5). Fan and EEV target follow state and running
mode, and EEV has that target (R66, R84). The model's choices in it: log 2. -/
def Obligations.PlantAndDriveStayLawful : Prop :=
  (Kept fun s => s.PlantLaw ∧ s.dln.TimerLaw) ∧
  (Kept State.OutputLaw)

/-- A stepper whose position is UNKNOWN or which is in FAULT makes no seek steps, a known position stays within
0..travel, and its timer runs only while it moves (the law of R103, with R100 and R102 to R110). The model's choices
in it: log 18, log 31, log 32. -/
def Obligations.SteppersStayLawful : Prop := Kept State.SteppersLawful

/-- A deck's heater steps are 0 whenever its blower is not running, its overheat cut runs or its supply channel is
LOST (the law of R113), and a running blower has a stage (R115). -/
def Obligations.HeatersStayOffWithoutBlower : Prop := Kept State.HeatersLawful

/-- A channel's loss timer runs exactly in HELD, its value stays in its range, and a channel that was ever good has
one; a watch's count stays below its persistence, and a TRIPPED watch holds the value that tripped it (R119, R123,
R124, R127 to R130). -/
def Obligations.ChannelsAndWatchesStayLawful : Prop := Kept State.SensorsLawful

/-- Between two commands the runner is never RUNNING, WAITING has a stage and a poll timer, SUSPENDED a resume point,
a burst has completed at most 64 stages; the store keeps its canonical form and the entries name its places (R135 to
R141, R146, R152). The model's choices in it: log 7, log 10. -/
def Obligations.RunnerAndStoreStayLawful : Prop := Kept fun s => s.RunnerLaw ∧ s.StoreLaw

/-- The trace queue holds at most 256 records and records dropped have a first drop time (the law of R158, R161); the
receive queue holds at most four frames (R168). The slot holds an operation exactly while the status record shows its
kind and source RUNNING (the law of R173, R174). -/
def Obligations.QueuesAndSlotStayLawful : Prop :=
  (Kept fun s => s.trq.Lawful ∧ s.blp.QueueLaw) ∧
  (Kept State.SlotLaw)

end
end

