-- ==== Sys2Proof/Laws/State.lean ====
section
/-! SUPPORT. What each update of the state changes and what it leaves: one lemma per field per update, true by `rfl`; and
the reads of records through the updates of records. -/

namespace Sys2Proof.Machine.State

variable (s : State)

/-! ## One block written -/

@[simp] theorem setPending_pending (x : List Instr) : (s.setPending x).pending = x := rfl
@[simp] theorem setPending_time (x : List Instr) : (s.setPending x).time = s.time := rfl
@[simp] theorem setPending_zrg (x : List Instr) : (s.setPending x).zrg = s.zrg := rfl
@[simp] theorem setPending_sha (x : List Instr) : (s.setPending x).sha = s.sha := rfl
@[simp] theorem setPending_aqu (x : List Instr) : (s.setPending x).aqu = s.aqu := rfl
@[simp] theorem setPending_psq (x : List Instr) : (s.setPending x).psq = s.psq := rfl
@[simp] theorem setPending_dln (x : List Instr) : (s.setPending x).dln = s.dln := rfl
@[simp] theorem setPending_act (x : List Instr) : (s.setPending x).act = s.act := rfl
@[simp] theorem setPending_ssc (x : List Instr) : (s.setPending x).ssc = s.ssc := rfl
@[simp] theorem setPending_wch (x : List Instr) : (s.setPending x).wch = s.wch := rfl
@[simp] theorem setPending_str (x : List Instr) : (s.setPending x).str = s.str := rfl
@[simp] theorem setPending_trq (x : List Instr) : (s.setPending x).trq = s.trq := rfl
@[simp] theorem setPending_blp (x : List Instr) : (s.setPending x).blp = s.blp := rfl
@[simp] theorem setPending_ops (x : List Instr) : (s.setPending x).ops = s.ops := rfl
@[simp] theorem setPending_mail (x : List Instr) : (s.setPending x).mail = s.mail := rfl
@[simp] theorem setPending_bodyOut (x : List Instr) : (s.setPending x).bodyOut = s.bodyOut := rfl
@[simp] theorem setPending_driveOut (x : List Instr) : (s.setPending x).driveOut = s.driveOut := rfl

@[simp] theorem setTime_pending (x : Nat) : (s.setTime x).pending = s.pending := rfl
@[simp] theorem setTime_time (x : Nat) : (s.setTime x).time = x := rfl
@[simp] theorem setTime_zrg (x : Nat) : (s.setTime x).zrg = s.zrg := rfl
@[simp] theorem setTime_sha (x : Nat) : (s.setTime x).sha = s.sha := rfl
@[simp] theorem setTime_aqu (x : Nat) : (s.setTime x).aqu = s.aqu := rfl
@[simp] theorem setTime_psq (x : Nat) : (s.setTime x).psq = s.psq := rfl
@[simp] theorem setTime_dln (x : Nat) : (s.setTime x).dln = s.dln := rfl
@[simp] theorem setTime_act (x : Nat) : (s.setTime x).act = s.act := rfl
@[simp] theorem setTime_ssc (x : Nat) : (s.setTime x).ssc = s.ssc := rfl
@[simp] theorem setTime_wch (x : Nat) : (s.setTime x).wch = s.wch := rfl
@[simp] theorem setTime_str (x : Nat) : (s.setTime x).str = s.str := rfl
@[simp] theorem setTime_trq (x : Nat) : (s.setTime x).trq = s.trq := rfl
@[simp] theorem setTime_blp (x : Nat) : (s.setTime x).blp = s.blp := rfl
@[simp] theorem setTime_ops (x : Nat) : (s.setTime x).ops = s.ops := rfl
@[simp] theorem setTime_mail (x : Nat) : (s.setTime x).mail = s.mail := rfl
@[simp] theorem setTime_bodyOut (x : Nat) : (s.setTime x).bodyOut = s.bodyOut := rfl
@[simp] theorem setTime_driveOut (x : Nat) : (s.setTime x).driveOut = s.driveOut := rfl

@[simp] theorem setZrg_pending (x : Zrg) : (s.setZrg x).pending = s.pending := rfl
@[simp] theorem setZrg_time (x : Zrg) : (s.setZrg x).time = s.time := rfl
@[simp] theorem setZrg_zrg (x : Zrg) : (s.setZrg x).zrg = x := rfl
@[simp] theorem setZrg_sha (x : Zrg) : (s.setZrg x).sha = s.sha := rfl
@[simp] theorem setZrg_aqu (x : Zrg) : (s.setZrg x).aqu = s.aqu := rfl
@[simp] theorem setZrg_psq (x : Zrg) : (s.setZrg x).psq = s.psq := rfl
@[simp] theorem setZrg_dln (x : Zrg) : (s.setZrg x).dln = s.dln := rfl
@[simp] theorem setZrg_act (x : Zrg) : (s.setZrg x).act = s.act := rfl
@[simp] theorem setZrg_ssc (x : Zrg) : (s.setZrg x).ssc = s.ssc := rfl
@[simp] theorem setZrg_wch (x : Zrg) : (s.setZrg x).wch = s.wch := rfl
@[simp] theorem setZrg_str (x : Zrg) : (s.setZrg x).str = s.str := rfl
@[simp] theorem setZrg_trq (x : Zrg) : (s.setZrg x).trq = s.trq := rfl
@[simp] theorem setZrg_blp (x : Zrg) : (s.setZrg x).blp = s.blp := rfl
@[simp] theorem setZrg_ops (x : Zrg) : (s.setZrg x).ops = s.ops := rfl
@[simp] theorem setZrg_mail (x : Zrg) : (s.setZrg x).mail = s.mail := rfl
@[simp] theorem setZrg_bodyOut (x : Zrg) : (s.setZrg x).bodyOut = s.bodyOut := rfl
@[simp] theorem setZrg_driveOut (x : Zrg) : (s.setZrg x).driveOut = s.driveOut := rfl

@[simp] theorem setSha_pending (x : Sha) : (s.setSha x).pending = s.pending := rfl
@[simp] theorem setSha_time (x : Sha) : (s.setSha x).time = s.time := rfl
@[simp] theorem setSha_zrg (x : Sha) : (s.setSha x).zrg = s.zrg := rfl
@[simp] theorem setSha_sha (x : Sha) : (s.setSha x).sha = x := rfl
@[simp] theorem setSha_aqu (x : Sha) : (s.setSha x).aqu = s.aqu := rfl
@[simp] theorem setSha_psq (x : Sha) : (s.setSha x).psq = s.psq := rfl
@[simp] theorem setSha_dln (x : Sha) : (s.setSha x).dln = s.dln := rfl
@[simp] theorem setSha_act (x : Sha) : (s.setSha x).act = s.act := rfl
@[simp] theorem setSha_ssc (x : Sha) : (s.setSha x).ssc = s.ssc := rfl
@[simp] theorem setSha_wch (x : Sha) : (s.setSha x).wch = s.wch := rfl
@[simp] theorem setSha_str (x : Sha) : (s.setSha x).str = s.str := rfl
@[simp] theorem setSha_trq (x : Sha) : (s.setSha x).trq = s.trq := rfl
@[simp] theorem setSha_blp (x : Sha) : (s.setSha x).blp = s.blp := rfl
@[simp] theorem setSha_ops (x : Sha) : (s.setSha x).ops = s.ops := rfl
@[simp] theorem setSha_mail (x : Sha) : (s.setSha x).mail = s.mail := rfl
@[simp] theorem setSha_bodyOut (x : Sha) : (s.setSha x).bodyOut = s.bodyOut := rfl
@[simp] theorem setSha_driveOut (x : Sha) : (s.setSha x).driveOut = s.driveOut := rfl

@[simp] theorem setAqu_pending (x : Aqu) : (s.setAqu x).pending = s.pending := rfl
@[simp] theorem setAqu_time (x : Aqu) : (s.setAqu x).time = s.time := rfl
@[simp] theorem setAqu_zrg (x : Aqu) : (s.setAqu x).zrg = s.zrg := rfl
@[simp] theorem setAqu_sha (x : Aqu) : (s.setAqu x).sha = s.sha := rfl
@[simp] theorem setAqu_aqu (x : Aqu) : (s.setAqu x).aqu = x := rfl
@[simp] theorem setAqu_psq (x : Aqu) : (s.setAqu x).psq = s.psq := rfl
@[simp] theorem setAqu_dln (x : Aqu) : (s.setAqu x).dln = s.dln := rfl
@[simp] theorem setAqu_act (x : Aqu) : (s.setAqu x).act = s.act := rfl
@[simp] theorem setAqu_ssc (x : Aqu) : (s.setAqu x).ssc = s.ssc := rfl
@[simp] theorem setAqu_wch (x : Aqu) : (s.setAqu x).wch = s.wch := rfl
@[simp] theorem setAqu_str (x : Aqu) : (s.setAqu x).str = s.str := rfl
@[simp] theorem setAqu_trq (x : Aqu) : (s.setAqu x).trq = s.trq := rfl
@[simp] theorem setAqu_blp (x : Aqu) : (s.setAqu x).blp = s.blp := rfl
@[simp] theorem setAqu_ops (x : Aqu) : (s.setAqu x).ops = s.ops := rfl
@[simp] theorem setAqu_mail (x : Aqu) : (s.setAqu x).mail = s.mail := rfl
@[simp] theorem setAqu_bodyOut (x : Aqu) : (s.setAqu x).bodyOut = s.bodyOut := rfl
@[simp] theorem setAqu_driveOut (x : Aqu) : (s.setAqu x).driveOut = s.driveOut := rfl

@[simp] theorem setPsq_pending (x : Psq) : (s.setPsq x).pending = s.pending := rfl
@[simp] theorem setPsq_time (x : Psq) : (s.setPsq x).time = s.time := rfl
@[simp] theorem setPsq_zrg (x : Psq) : (s.setPsq x).zrg = s.zrg := rfl
@[simp] theorem setPsq_sha (x : Psq) : (s.setPsq x).sha = s.sha := rfl
@[simp] theorem setPsq_aqu (x : Psq) : (s.setPsq x).aqu = s.aqu := rfl
@[simp] theorem setPsq_psq (x : Psq) : (s.setPsq x).psq = x := rfl
@[simp] theorem setPsq_dln (x : Psq) : (s.setPsq x).dln = s.dln := rfl
@[simp] theorem setPsq_act (x : Psq) : (s.setPsq x).act = s.act := rfl
@[simp] theorem setPsq_ssc (x : Psq) : (s.setPsq x).ssc = s.ssc := rfl
@[simp] theorem setPsq_wch (x : Psq) : (s.setPsq x).wch = s.wch := rfl
@[simp] theorem setPsq_str (x : Psq) : (s.setPsq x).str = s.str := rfl
@[simp] theorem setPsq_trq (x : Psq) : (s.setPsq x).trq = s.trq := rfl
@[simp] theorem setPsq_blp (x : Psq) : (s.setPsq x).blp = s.blp := rfl
@[simp] theorem setPsq_ops (x : Psq) : (s.setPsq x).ops = s.ops := rfl
@[simp] theorem setPsq_mail (x : Psq) : (s.setPsq x).mail = s.mail := rfl
@[simp] theorem setPsq_bodyOut (x : Psq) : (s.setPsq x).bodyOut = s.bodyOut := rfl
@[simp] theorem setPsq_driveOut (x : Psq) : (s.setPsq x).driveOut = s.driveOut := rfl

@[simp] theorem setDln_pending (x : Dln) : (s.setDln x).pending = s.pending := rfl
@[simp] theorem setDln_time (x : Dln) : (s.setDln x).time = s.time := rfl
@[simp] theorem setDln_zrg (x : Dln) : (s.setDln x).zrg = s.zrg := rfl
@[simp] theorem setDln_sha (x : Dln) : (s.setDln x).sha = s.sha := rfl
@[simp] theorem setDln_aqu (x : Dln) : (s.setDln x).aqu = s.aqu := rfl
@[simp] theorem setDln_psq (x : Dln) : (s.setDln x).psq = s.psq := rfl
@[simp] theorem setDln_dln (x : Dln) : (s.setDln x).dln = x := rfl
@[simp] theorem setDln_act (x : Dln) : (s.setDln x).act = s.act := rfl
@[simp] theorem setDln_ssc (x : Dln) : (s.setDln x).ssc = s.ssc := rfl
@[simp] theorem setDln_wch (x : Dln) : (s.setDln x).wch = s.wch := rfl
@[simp] theorem setDln_str (x : Dln) : (s.setDln x).str = s.str := rfl
@[simp] theorem setDln_trq (x : Dln) : (s.setDln x).trq = s.trq := rfl
@[simp] theorem setDln_blp (x : Dln) : (s.setDln x).blp = s.blp := rfl
@[simp] theorem setDln_ops (x : Dln) : (s.setDln x).ops = s.ops := rfl
@[simp] theorem setDln_mail (x : Dln) : (s.setDln x).mail = s.mail := rfl
@[simp] theorem setDln_bodyOut (x : Dln) : (s.setDln x).bodyOut = s.bodyOut := rfl
@[simp] theorem setDln_driveOut (x : Dln) : (s.setDln x).driveOut = s.driveOut := rfl

@[simp] theorem setAct_pending (x : Act) : (s.setAct x).pending = s.pending := rfl
@[simp] theorem setAct_time (x : Act) : (s.setAct x).time = s.time := rfl
@[simp] theorem setAct_zrg (x : Act) : (s.setAct x).zrg = s.zrg := rfl
@[simp] theorem setAct_sha (x : Act) : (s.setAct x).sha = s.sha := rfl
@[simp] theorem setAct_aqu (x : Act) : (s.setAct x).aqu = s.aqu := rfl
@[simp] theorem setAct_psq (x : Act) : (s.setAct x).psq = s.psq := rfl
@[simp] theorem setAct_dln (x : Act) : (s.setAct x).dln = s.dln := rfl
@[simp] theorem setAct_act (x : Act) : (s.setAct x).act = x := rfl
@[simp] theorem setAct_ssc (x : Act) : (s.setAct x).ssc = s.ssc := rfl
@[simp] theorem setAct_wch (x : Act) : (s.setAct x).wch = s.wch := rfl
@[simp] theorem setAct_str (x : Act) : (s.setAct x).str = s.str := rfl
@[simp] theorem setAct_trq (x : Act) : (s.setAct x).trq = s.trq := rfl
@[simp] theorem setAct_blp (x : Act) : (s.setAct x).blp = s.blp := rfl
@[simp] theorem setAct_ops (x : Act) : (s.setAct x).ops = s.ops := rfl
@[simp] theorem setAct_mail (x : Act) : (s.setAct x).mail = s.mail := rfl
@[simp] theorem setAct_bodyOut (x : Act) : (s.setAct x).bodyOut = s.bodyOut := rfl
@[simp] theorem setAct_driveOut (x : Act) : (s.setAct x).driveOut = s.driveOut := rfl

@[simp] theorem setSsc_pending (x : Channels ChannelRec) : (s.setSsc x).pending = s.pending := rfl
@[simp] theorem setSsc_time (x : Channels ChannelRec) : (s.setSsc x).time = s.time := rfl
@[simp] theorem setSsc_zrg (x : Channels ChannelRec) : (s.setSsc x).zrg = s.zrg := rfl
@[simp] theorem setSsc_sha (x : Channels ChannelRec) : (s.setSsc x).sha = s.sha := rfl
@[simp] theorem setSsc_aqu (x : Channels ChannelRec) : (s.setSsc x).aqu = s.aqu := rfl
@[simp] theorem setSsc_psq (x : Channels ChannelRec) : (s.setSsc x).psq = s.psq := rfl
@[simp] theorem setSsc_dln (x : Channels ChannelRec) : (s.setSsc x).dln = s.dln := rfl
@[simp] theorem setSsc_act (x : Channels ChannelRec) : (s.setSsc x).act = s.act := rfl
@[simp] theorem setSsc_ssc (x : Channels ChannelRec) : (s.setSsc x).ssc = x := rfl
@[simp] theorem setSsc_wch (x : Channels ChannelRec) : (s.setSsc x).wch = s.wch := rfl
@[simp] theorem setSsc_str (x : Channels ChannelRec) : (s.setSsc x).str = s.str := rfl
@[simp] theorem setSsc_trq (x : Channels ChannelRec) : (s.setSsc x).trq = s.trq := rfl
@[simp] theorem setSsc_blp (x : Channels ChannelRec) : (s.setSsc x).blp = s.blp := rfl
@[simp] theorem setSsc_ops (x : Channels ChannelRec) : (s.setSsc x).ops = s.ops := rfl
@[simp] theorem setSsc_mail (x : Channels ChannelRec) : (s.setSsc x).mail = s.mail := rfl
@[simp] theorem setSsc_bodyOut (x : Channels ChannelRec) : (s.setSsc x).bodyOut = s.bodyOut := rfl
@[simp] theorem setSsc_driveOut (x : Channels ChannelRec) : (s.setSsc x).driveOut = s.driveOut := rfl

@[simp] theorem setWch_pending (x : Eight WatchRec) : (s.setWch x).pending = s.pending := rfl
@[simp] theorem setWch_time (x : Eight WatchRec) : (s.setWch x).time = s.time := rfl
@[simp] theorem setWch_zrg (x : Eight WatchRec) : (s.setWch x).zrg = s.zrg := rfl
@[simp] theorem setWch_sha (x : Eight WatchRec) : (s.setWch x).sha = s.sha := rfl
@[simp] theorem setWch_aqu (x : Eight WatchRec) : (s.setWch x).aqu = s.aqu := rfl
@[simp] theorem setWch_psq (x : Eight WatchRec) : (s.setWch x).psq = s.psq := rfl
@[simp] theorem setWch_dln (x : Eight WatchRec) : (s.setWch x).dln = s.dln := rfl
@[simp] theorem setWch_act (x : Eight WatchRec) : (s.setWch x).act = s.act := rfl
@[simp] theorem setWch_ssc (x : Eight WatchRec) : (s.setWch x).ssc = s.ssc := rfl
@[simp] theorem setWch_wch (x : Eight WatchRec) : (s.setWch x).wch = x := rfl
@[simp] theorem setWch_str (x : Eight WatchRec) : (s.setWch x).str = s.str := rfl
@[simp] theorem setWch_trq (x : Eight WatchRec) : (s.setWch x).trq = s.trq := rfl
@[simp] theorem setWch_blp (x : Eight WatchRec) : (s.setWch x).blp = s.blp := rfl
@[simp] theorem setWch_ops (x : Eight WatchRec) : (s.setWch x).ops = s.ops := rfl
@[simp] theorem setWch_mail (x : Eight WatchRec) : (s.setWch x).mail = s.mail := rfl
@[simp] theorem setWch_bodyOut (x : Eight WatchRec) : (s.setWch x).bodyOut = s.bodyOut := rfl
@[simp] theorem setWch_driveOut (x : Eight WatchRec) : (s.setWch x).driveOut = s.driveOut := rfl

@[simp] theorem setStr_pending (x : Str) : (s.setStr x).pending = s.pending := rfl
@[simp] theorem setStr_time (x : Str) : (s.setStr x).time = s.time := rfl
@[simp] theorem setStr_zrg (x : Str) : (s.setStr x).zrg = s.zrg := rfl
@[simp] theorem setStr_sha (x : Str) : (s.setStr x).sha = s.sha := rfl
@[simp] theorem setStr_aqu (x : Str) : (s.setStr x).aqu = s.aqu := rfl
@[simp] theorem setStr_psq (x : Str) : (s.setStr x).psq = s.psq := rfl
@[simp] theorem setStr_dln (x : Str) : (s.setStr x).dln = s.dln := rfl
@[simp] theorem setStr_act (x : Str) : (s.setStr x).act = s.act := rfl
@[simp] theorem setStr_ssc (x : Str) : (s.setStr x).ssc = s.ssc := rfl
@[simp] theorem setStr_wch (x : Str) : (s.setStr x).wch = s.wch := rfl
@[simp] theorem setStr_str (x : Str) : (s.setStr x).str = x := rfl
@[simp] theorem setStr_trq (x : Str) : (s.setStr x).trq = s.trq := rfl
@[simp] theorem setStr_blp (x : Str) : (s.setStr x).blp = s.blp := rfl
@[simp] theorem setStr_ops (x : Str) : (s.setStr x).ops = s.ops := rfl
@[simp] theorem setStr_mail (x : Str) : (s.setStr x).mail = s.mail := rfl
@[simp] theorem setStr_bodyOut (x : Str) : (s.setStr x).bodyOut = s.bodyOut := rfl
@[simp] theorem setStr_driveOut (x : Str) : (s.setStr x).driveOut = s.driveOut := rfl

@[simp] theorem setTrq_pending (x : Trq) : (s.setTrq x).pending = s.pending := rfl
@[simp] theorem setTrq_time (x : Trq) : (s.setTrq x).time = s.time := rfl
@[simp] theorem setTrq_zrg (x : Trq) : (s.setTrq x).zrg = s.zrg := rfl
@[simp] theorem setTrq_sha (x : Trq) : (s.setTrq x).sha = s.sha := rfl
@[simp] theorem setTrq_aqu (x : Trq) : (s.setTrq x).aqu = s.aqu := rfl
@[simp] theorem setTrq_psq (x : Trq) : (s.setTrq x).psq = s.psq := rfl
@[simp] theorem setTrq_dln (x : Trq) : (s.setTrq x).dln = s.dln := rfl
@[simp] theorem setTrq_act (x : Trq) : (s.setTrq x).act = s.act := rfl
@[simp] theorem setTrq_ssc (x : Trq) : (s.setTrq x).ssc = s.ssc := rfl
@[simp] theorem setTrq_wch (x : Trq) : (s.setTrq x).wch = s.wch := rfl
@[simp] theorem setTrq_str (x : Trq) : (s.setTrq x).str = s.str := rfl
@[simp] theorem setTrq_trq (x : Trq) : (s.setTrq x).trq = x := rfl
@[simp] theorem setTrq_blp (x : Trq) : (s.setTrq x).blp = s.blp := rfl
@[simp] theorem setTrq_ops (x : Trq) : (s.setTrq x).ops = s.ops := rfl
@[simp] theorem setTrq_mail (x : Trq) : (s.setTrq x).mail = s.mail := rfl
@[simp] theorem setTrq_bodyOut (x : Trq) : (s.setTrq x).bodyOut = s.bodyOut := rfl
@[simp] theorem setTrq_driveOut (x : Trq) : (s.setTrq x).driveOut = s.driveOut := rfl

@[simp] theorem setBlp_pending (x : Blp) : (s.setBlp x).pending = s.pending := rfl
@[simp] theorem setBlp_time (x : Blp) : (s.setBlp x).time = s.time := rfl
@[simp] theorem setBlp_zrg (x : Blp) : (s.setBlp x).zrg = s.zrg := rfl
@[simp] theorem setBlp_sha (x : Blp) : (s.setBlp x).sha = s.sha := rfl
@[simp] theorem setBlp_aqu (x : Blp) : (s.setBlp x).aqu = s.aqu := rfl
@[simp] theorem setBlp_psq (x : Blp) : (s.setBlp x).psq = s.psq := rfl
@[simp] theorem setBlp_dln (x : Blp) : (s.setBlp x).dln = s.dln := rfl
@[simp] theorem setBlp_act (x : Blp) : (s.setBlp x).act = s.act := rfl
@[simp] theorem setBlp_ssc (x : Blp) : (s.setBlp x).ssc = s.ssc := rfl
@[simp] theorem setBlp_wch (x : Blp) : (s.setBlp x).wch = s.wch := rfl
@[simp] theorem setBlp_str (x : Blp) : (s.setBlp x).str = s.str := rfl
@[simp] theorem setBlp_trq (x : Blp) : (s.setBlp x).trq = s.trq := rfl
@[simp] theorem setBlp_blp (x : Blp) : (s.setBlp x).blp = x := rfl
@[simp] theorem setBlp_ops (x : Blp) : (s.setBlp x).ops = s.ops := rfl
@[simp] theorem setBlp_mail (x : Blp) : (s.setBlp x).mail = s.mail := rfl
@[simp] theorem setBlp_bodyOut (x : Blp) : (s.setBlp x).bodyOut = s.bodyOut := rfl
@[simp] theorem setBlp_driveOut (x : Blp) : (s.setBlp x).driveOut = s.driveOut := rfl

@[simp] theorem setOps_pending (x : Ops) : (s.setOps x).pending = s.pending := rfl
@[simp] theorem setOps_time (x : Ops) : (s.setOps x).time = s.time := rfl
@[simp] theorem setOps_zrg (x : Ops) : (s.setOps x).zrg = s.zrg := rfl
@[simp] theorem setOps_sha (x : Ops) : (s.setOps x).sha = s.sha := rfl
@[simp] theorem setOps_aqu (x : Ops) : (s.setOps x).aqu = s.aqu := rfl
@[simp] theorem setOps_psq (x : Ops) : (s.setOps x).psq = s.psq := rfl
@[simp] theorem setOps_dln (x : Ops) : (s.setOps x).dln = s.dln := rfl
@[simp] theorem setOps_act (x : Ops) : (s.setOps x).act = s.act := rfl
@[simp] theorem setOps_ssc (x : Ops) : (s.setOps x).ssc = s.ssc := rfl
@[simp] theorem setOps_wch (x : Ops) : (s.setOps x).wch = s.wch := rfl
@[simp] theorem setOps_str (x : Ops) : (s.setOps x).str = s.str := rfl
@[simp] theorem setOps_trq (x : Ops) : (s.setOps x).trq = s.trq := rfl
@[simp] theorem setOps_blp (x : Ops) : (s.setOps x).blp = s.blp := rfl
@[simp] theorem setOps_ops (x : Ops) : (s.setOps x).ops = x := rfl
@[simp] theorem setOps_mail (x : Ops) : (s.setOps x).mail = s.mail := rfl
@[simp] theorem setOps_bodyOut (x : Ops) : (s.setOps x).bodyOut = s.bodyOut := rfl
@[simp] theorem setOps_driveOut (x : Ops) : (s.setOps x).driveOut = s.driveOut := rfl

@[simp] theorem setMail_pending (x : Mail) : (s.setMail x).pending = s.pending := rfl
@[simp] theorem setMail_time (x : Mail) : (s.setMail x).time = s.time := rfl
@[simp] theorem setMail_zrg (x : Mail) : (s.setMail x).zrg = s.zrg := rfl
@[simp] theorem setMail_sha (x : Mail) : (s.setMail x).sha = s.sha := rfl
@[simp] theorem setMail_aqu (x : Mail) : (s.setMail x).aqu = s.aqu := rfl
@[simp] theorem setMail_psq (x : Mail) : (s.setMail x).psq = s.psq := rfl
@[simp] theorem setMail_dln (x : Mail) : (s.setMail x).dln = s.dln := rfl
@[simp] theorem setMail_act (x : Mail) : (s.setMail x).act = s.act := rfl
@[simp] theorem setMail_ssc (x : Mail) : (s.setMail x).ssc = s.ssc := rfl
@[simp] theorem setMail_wch (x : Mail) : (s.setMail x).wch = s.wch := rfl
@[simp] theorem setMail_str (x : Mail) : (s.setMail x).str = s.str := rfl
@[simp] theorem setMail_trq (x : Mail) : (s.setMail x).trq = s.trq := rfl
@[simp] theorem setMail_blp (x : Mail) : (s.setMail x).blp = s.blp := rfl
@[simp] theorem setMail_ops (x : Mail) : (s.setMail x).ops = s.ops := rfl
@[simp] theorem setMail_mail (x : Mail) : (s.setMail x).mail = x := rfl
@[simp] theorem setMail_bodyOut (x : Mail) : (s.setMail x).bodyOut = s.bodyOut := rfl
@[simp] theorem setMail_driveOut (x : Mail) : (s.setMail x).driveOut = s.driveOut := rfl

@[simp] theorem setBodyOut_pending (x : List Byte) : (s.setBodyOut x).pending = s.pending := rfl
@[simp] theorem setBodyOut_time (x : List Byte) : (s.setBodyOut x).time = s.time := rfl
@[simp] theorem setBodyOut_zrg (x : List Byte) : (s.setBodyOut x).zrg = s.zrg := rfl
@[simp] theorem setBodyOut_sha (x : List Byte) : (s.setBodyOut x).sha = s.sha := rfl
@[simp] theorem setBodyOut_aqu (x : List Byte) : (s.setBodyOut x).aqu = s.aqu := rfl
@[simp] theorem setBodyOut_psq (x : List Byte) : (s.setBodyOut x).psq = s.psq := rfl
@[simp] theorem setBodyOut_dln (x : List Byte) : (s.setBodyOut x).dln = s.dln := rfl
@[simp] theorem setBodyOut_act (x : List Byte) : (s.setBodyOut x).act = s.act := rfl
@[simp] theorem setBodyOut_ssc (x : List Byte) : (s.setBodyOut x).ssc = s.ssc := rfl
@[simp] theorem setBodyOut_wch (x : List Byte) : (s.setBodyOut x).wch = s.wch := rfl
@[simp] theorem setBodyOut_str (x : List Byte) : (s.setBodyOut x).str = s.str := rfl
@[simp] theorem setBodyOut_trq (x : List Byte) : (s.setBodyOut x).trq = s.trq := rfl
@[simp] theorem setBodyOut_blp (x : List Byte) : (s.setBodyOut x).blp = s.blp := rfl
@[simp] theorem setBodyOut_ops (x : List Byte) : (s.setBodyOut x).ops = s.ops := rfl
@[simp] theorem setBodyOut_mail (x : List Byte) : (s.setBodyOut x).mail = s.mail := rfl
@[simp] theorem setBodyOut_bodyOut (x : List Byte) : (s.setBodyOut x).bodyOut = x := rfl
@[simp] theorem setBodyOut_driveOut (x : List Byte) : (s.setBodyOut x).driveOut = s.driveOut := rfl

@[simp] theorem setDriveOut_pending (x : List Byte) : (s.setDriveOut x).pending = s.pending := rfl
@[simp] theorem setDriveOut_time (x : List Byte) : (s.setDriveOut x).time = s.time := rfl
@[simp] theorem setDriveOut_zrg (x : List Byte) : (s.setDriveOut x).zrg = s.zrg := rfl
@[simp] theorem setDriveOut_sha (x : List Byte) : (s.setDriveOut x).sha = s.sha := rfl
@[simp] theorem setDriveOut_aqu (x : List Byte) : (s.setDriveOut x).aqu = s.aqu := rfl
@[simp] theorem setDriveOut_psq (x : List Byte) : (s.setDriveOut x).psq = s.psq := rfl
@[simp] theorem setDriveOut_dln (x : List Byte) : (s.setDriveOut x).dln = s.dln := rfl
@[simp] theorem setDriveOut_act (x : List Byte) : (s.setDriveOut x).act = s.act := rfl
@[simp] theorem setDriveOut_ssc (x : List Byte) : (s.setDriveOut x).ssc = s.ssc := rfl
@[simp] theorem setDriveOut_wch (x : List Byte) : (s.setDriveOut x).wch = s.wch := rfl
@[simp] theorem setDriveOut_str (x : List Byte) : (s.setDriveOut x).str = s.str := rfl
@[simp] theorem setDriveOut_trq (x : List Byte) : (s.setDriveOut x).trq = s.trq := rfl
@[simp] theorem setDriveOut_blp (x : List Byte) : (s.setDriveOut x).blp = s.blp := rfl
@[simp] theorem setDriveOut_ops (x : List Byte) : (s.setDriveOut x).ops = s.ops := rfl
@[simp] theorem setDriveOut_mail (x : List Byte) : (s.setDriveOut x).mail = s.mail := rfl
@[simp] theorem setDriveOut_bodyOut (x : List Byte) : (s.setDriveOut x).bodyOut = s.bodyOut := rfl
@[simp] theorem setDriveOut_driveOut (x : List Byte) : (s.setDriveOut x).driveOut = x := rfl

/-! ## One record written -/

@[simp] theorem setZones_pending (t : Zones ZoneRec) : (s.setZones t).pending = s.pending := rfl
@[simp] theorem setZones_time (t : Zones ZoneRec) : (s.setZones t).time = s.time := rfl
@[simp] theorem setZones_sha (t : Zones ZoneRec) : (s.setZones t).sha = s.sha := rfl
@[simp] theorem setZones_aqu (t : Zones ZoneRec) : (s.setZones t).aqu = s.aqu := rfl
@[simp] theorem setZones_psq (t : Zones ZoneRec) : (s.setZones t).psq = s.psq := rfl
@[simp] theorem setZones_dln (t : Zones ZoneRec) : (s.setZones t).dln = s.dln := rfl
@[simp] theorem setZones_act (t : Zones ZoneRec) : (s.setZones t).act = s.act := rfl
@[simp] theorem setZones_ssc (t : Zones ZoneRec) : (s.setZones t).ssc = s.ssc := rfl
@[simp] theorem setZones_wch (t : Zones ZoneRec) : (s.setZones t).wch = s.wch := rfl
@[simp] theorem setZones_str (t : Zones ZoneRec) : (s.setZones t).str = s.str := rfl
@[simp] theorem setZones_trq (t : Zones ZoneRec) : (s.setZones t).trq = s.trq := rfl
@[simp] theorem setZones_blp (t : Zones ZoneRec) : (s.setZones t).blp = s.blp := rfl
@[simp] theorem setZones_ops (t : Zones ZoneRec) : (s.setZones t).ops = s.ops := rfl
@[simp] theorem setZones_mail (t : Zones ZoneRec) : (s.setZones t).mail = s.mail := rfl
@[simp] theorem setZones_bodyOut (t : Zones ZoneRec) : (s.setZones t).bodyOut = s.bodyOut := rfl
@[simp] theorem setZones_driveOut (t : Zones ZoneRec) : (s.setZones t).driveOut = s.driveOut := rfl

@[simp] theorem setZone_pending (z : Zone) (r : ZoneRec) : (s.setZone z r).pending = s.pending := rfl
@[simp] theorem setZone_time (z : Zone) (r : ZoneRec) : (s.setZone z r).time = s.time := rfl
@[simp] theorem setZone_sha (z : Zone) (r : ZoneRec) : (s.setZone z r).sha = s.sha := rfl
@[simp] theorem setZone_aqu (z : Zone) (r : ZoneRec) : (s.setZone z r).aqu = s.aqu := rfl
@[simp] theorem setZone_psq (z : Zone) (r : ZoneRec) : (s.setZone z r).psq = s.psq := rfl
@[simp] theorem setZone_dln (z : Zone) (r : ZoneRec) : (s.setZone z r).dln = s.dln := rfl
@[simp] theorem setZone_act (z : Zone) (r : ZoneRec) : (s.setZone z r).act = s.act := rfl
@[simp] theorem setZone_ssc (z : Zone) (r : ZoneRec) : (s.setZone z r).ssc = s.ssc := rfl
@[simp] theorem setZone_wch (z : Zone) (r : ZoneRec) : (s.setZone z r).wch = s.wch := rfl
@[simp] theorem setZone_str (z : Zone) (r : ZoneRec) : (s.setZone z r).str = s.str := rfl
@[simp] theorem setZone_trq (z : Zone) (r : ZoneRec) : (s.setZone z r).trq = s.trq := rfl
@[simp] theorem setZone_blp (z : Zone) (r : ZoneRec) : (s.setZone z r).blp = s.blp := rfl
@[simp] theorem setZone_ops (z : Zone) (r : ZoneRec) : (s.setZone z r).ops = s.ops := rfl
@[simp] theorem setZone_mail (z : Zone) (r : ZoneRec) : (s.setZone z r).mail = s.mail := rfl
@[simp] theorem setZone_bodyOut (z : Zone) (r : ZoneRec) : (s.setZone z r).bodyOut = s.bodyOut := rfl
@[simp] theorem setZone_driveOut (z : Zone) (r : ZoneRec) : (s.setZone z r).driveOut = s.driveOut := rfl

@[simp] theorem setDoor_pending (d : Door) (r : DoorRec) : (s.setDoor d r).pending = s.pending := rfl
@[simp] theorem setDoor_time (d : Door) (r : DoorRec) : (s.setDoor d r).time = s.time := rfl
@[simp] theorem setDoor_sha (d : Door) (r : DoorRec) : (s.setDoor d r).sha = s.sha := rfl
@[simp] theorem setDoor_aqu (d : Door) (r : DoorRec) : (s.setDoor d r).aqu = s.aqu := rfl
@[simp] theorem setDoor_psq (d : Door) (r : DoorRec) : (s.setDoor d r).psq = s.psq := rfl
@[simp] theorem setDoor_dln (d : Door) (r : DoorRec) : (s.setDoor d r).dln = s.dln := rfl
@[simp] theorem setDoor_act (d : Door) (r : DoorRec) : (s.setDoor d r).act = s.act := rfl
@[simp] theorem setDoor_ssc (d : Door) (r : DoorRec) : (s.setDoor d r).ssc = s.ssc := rfl
@[simp] theorem setDoor_wch (d : Door) (r : DoorRec) : (s.setDoor d r).wch = s.wch := rfl
@[simp] theorem setDoor_str (d : Door) (r : DoorRec) : (s.setDoor d r).str = s.str := rfl
@[simp] theorem setDoor_trq (d : Door) (r : DoorRec) : (s.setDoor d r).trq = s.trq := rfl
@[simp] theorem setDoor_blp (d : Door) (r : DoorRec) : (s.setDoor d r).blp = s.blp := rfl
@[simp] theorem setDoor_ops (d : Door) (r : DoorRec) : (s.setDoor d r).ops = s.ops := rfl
@[simp] theorem setDoor_mail (d : Door) (r : DoorRec) : (s.setDoor d r).mail = s.mail := rfl
@[simp] theorem setDoor_bodyOut (d : Door) (r : DoorRec) : (s.setDoor d r).bodyOut = s.bodyOut := rfl
@[simp] theorem setDoor_driveOut (d : Door) (r : DoorRec) : (s.setDoor d r).driveOut = s.driveOut := rfl

@[simp] theorem setStepper_pending (n : Stepper) (r : StepperRec) : (s.setStepper n r).pending = s.pending := rfl
@[simp] theorem setStepper_time (n : Stepper) (r : StepperRec) : (s.setStepper n r).time = s.time := rfl
@[simp] theorem setStepper_zrg (n : Stepper) (r : StepperRec) : (s.setStepper n r).zrg = s.zrg := rfl
@[simp] theorem setStepper_sha (n : Stepper) (r : StepperRec) : (s.setStepper n r).sha = s.sha := rfl
@[simp] theorem setStepper_aqu (n : Stepper) (r : StepperRec) : (s.setStepper n r).aqu = s.aqu := rfl
@[simp] theorem setStepper_psq (n : Stepper) (r : StepperRec) : (s.setStepper n r).psq = s.psq := rfl
@[simp] theorem setStepper_dln (n : Stepper) (r : StepperRec) : (s.setStepper n r).dln = s.dln := rfl
@[simp] theorem setStepper_ssc (n : Stepper) (r : StepperRec) : (s.setStepper n r).ssc = s.ssc := rfl
@[simp] theorem setStepper_wch (n : Stepper) (r : StepperRec) : (s.setStepper n r).wch = s.wch := rfl
@[simp] theorem setStepper_str (n : Stepper) (r : StepperRec) : (s.setStepper n r).str = s.str := rfl
@[simp] theorem setStepper_trq (n : Stepper) (r : StepperRec) : (s.setStepper n r).trq = s.trq := rfl
@[simp] theorem setStepper_blp (n : Stepper) (r : StepperRec) : (s.setStepper n r).blp = s.blp := rfl
@[simp] theorem setStepper_ops (n : Stepper) (r : StepperRec) : (s.setStepper n r).ops = s.ops := rfl
@[simp] theorem setStepper_mail (n : Stepper) (r : StepperRec) : (s.setStepper n r).mail = s.mail := rfl
@[simp] theorem setStepper_bodyOut (n : Stepper) (r : StepperRec) : (s.setStepper n r).bodyOut = s.bodyOut := rfl
@[simp] theorem setStepper_driveOut (n : Stepper) (r : StepperRec) : (s.setStepper n r).driveOut = s.driveOut := rfl

@[simp] theorem setDeck_pending (d : Deck) (r : DeckRec) : (s.setDeck d r).pending = s.pending := rfl
@[simp] theorem setDeck_time (d : Deck) (r : DeckRec) : (s.setDeck d r).time = s.time := rfl
@[simp] theorem setDeck_zrg (d : Deck) (r : DeckRec) : (s.setDeck d r).zrg = s.zrg := rfl
@[simp] theorem setDeck_sha (d : Deck) (r : DeckRec) : (s.setDeck d r).sha = s.sha := rfl
@[simp] theorem setDeck_aqu (d : Deck) (r : DeckRec) : (s.setDeck d r).aqu = s.aqu := rfl
@[simp] theorem setDeck_psq (d : Deck) (r : DeckRec) : (s.setDeck d r).psq = s.psq := rfl
@[simp] theorem setDeck_dln (d : Deck) (r : DeckRec) : (s.setDeck d r).dln = s.dln := rfl
@[simp] theorem setDeck_ssc (d : Deck) (r : DeckRec) : (s.setDeck d r).ssc = s.ssc := rfl
@[simp] theorem setDeck_wch (d : Deck) (r : DeckRec) : (s.setDeck d r).wch = s.wch := rfl
@[simp] theorem setDeck_str (d : Deck) (r : DeckRec) : (s.setDeck d r).str = s.str := rfl
@[simp] theorem setDeck_trq (d : Deck) (r : DeckRec) : (s.setDeck d r).trq = s.trq := rfl
@[simp] theorem setDeck_blp (d : Deck) (r : DeckRec) : (s.setDeck d r).blp = s.blp := rfl
@[simp] theorem setDeck_ops (d : Deck) (r : DeckRec) : (s.setDeck d r).ops = s.ops := rfl
@[simp] theorem setDeck_mail (d : Deck) (r : DeckRec) : (s.setDeck d r).mail = s.mail := rfl
@[simp] theorem setDeck_bodyOut (d : Deck) (r : DeckRec) : (s.setDeck d r).bodyOut = s.bodyOut := rfl
@[simp] theorem setDeck_driveOut (d : Deck) (r : DeckRec) : (s.setDeck d r).driveOut = s.driveOut := rfl

@[simp] theorem setChannel_pending (c : Channel) (r : ChannelRec) : (s.setChannel c r).pending = s.pending := rfl
@[simp] theorem setChannel_time (c : Channel) (r : ChannelRec) : (s.setChannel c r).time = s.time := rfl
@[simp] theorem setChannel_zrg (c : Channel) (r : ChannelRec) : (s.setChannel c r).zrg = s.zrg := rfl
@[simp] theorem setChannel_sha (c : Channel) (r : ChannelRec) : (s.setChannel c r).sha = s.sha := rfl
@[simp] theorem setChannel_aqu (c : Channel) (r : ChannelRec) : (s.setChannel c r).aqu = s.aqu := rfl
@[simp] theorem setChannel_psq (c : Channel) (r : ChannelRec) : (s.setChannel c r).psq = s.psq := rfl
@[simp] theorem setChannel_dln (c : Channel) (r : ChannelRec) : (s.setChannel c r).dln = s.dln := rfl
@[simp] theorem setChannel_act (c : Channel) (r : ChannelRec) : (s.setChannel c r).act = s.act := rfl
@[simp] theorem setChannel_wch (c : Channel) (r : ChannelRec) : (s.setChannel c r).wch = s.wch := rfl
@[simp] theorem setChannel_str (c : Channel) (r : ChannelRec) : (s.setChannel c r).str = s.str := rfl
@[simp] theorem setChannel_trq (c : Channel) (r : ChannelRec) : (s.setChannel c r).trq = s.trq := rfl
@[simp] theorem setChannel_blp (c : Channel) (r : ChannelRec) : (s.setChannel c r).blp = s.blp := rfl
@[simp] theorem setChannel_ops (c : Channel) (r : ChannelRec) : (s.setChannel c r).ops = s.ops := rfl
@[simp] theorem setChannel_mail (c : Channel) (r : ChannelRec) : (s.setChannel c r).mail = s.mail := rfl
@[simp] theorem setChannel_bodyOut (c : Channel) (r : ChannelRec) : (s.setChannel c r).bodyOut = s.bodyOut := rfl
@[simp] theorem setChannel_driveOut (c : Channel) (r : ChannelRec) : (s.setChannel c r).driveOut = s.driveOut := rfl

@[simp] theorem setWatch_pending (i : Idx8) (r : WatchRec) : (s.setWatch i r).pending = s.pending := rfl
@[simp] theorem setWatch_time (i : Idx8) (r : WatchRec) : (s.setWatch i r).time = s.time := rfl
@[simp] theorem setWatch_zrg (i : Idx8) (r : WatchRec) : (s.setWatch i r).zrg = s.zrg := rfl
@[simp] theorem setWatch_sha (i : Idx8) (r : WatchRec) : (s.setWatch i r).sha = s.sha := rfl
@[simp] theorem setWatch_aqu (i : Idx8) (r : WatchRec) : (s.setWatch i r).aqu = s.aqu := rfl
@[simp] theorem setWatch_psq (i : Idx8) (r : WatchRec) : (s.setWatch i r).psq = s.psq := rfl
@[simp] theorem setWatch_dln (i : Idx8) (r : WatchRec) : (s.setWatch i r).dln = s.dln := rfl
@[simp] theorem setWatch_act (i : Idx8) (r : WatchRec) : (s.setWatch i r).act = s.act := rfl
@[simp] theorem setWatch_ssc (i : Idx8) (r : WatchRec) : (s.setWatch i r).ssc = s.ssc := rfl
@[simp] theorem setWatch_str (i : Idx8) (r : WatchRec) : (s.setWatch i r).str = s.str := rfl
@[simp] theorem setWatch_trq (i : Idx8) (r : WatchRec) : (s.setWatch i r).trq = s.trq := rfl
@[simp] theorem setWatch_blp (i : Idx8) (r : WatchRec) : (s.setWatch i r).blp = s.blp := rfl
@[simp] theorem setWatch_ops (i : Idx8) (r : WatchRec) : (s.setWatch i r).ops = s.ops := rfl
@[simp] theorem setWatch_mail (i : Idx8) (r : WatchRec) : (s.setWatch i r).mail = s.mail := rfl
@[simp] theorem setWatch_bodyOut (i : Idx8) (r : WatchRec) : (s.setWatch i r).bodyOut = s.bodyOut := rfl
@[simp] theorem setWatch_driveOut (i : Idx8) (r : WatchRec) : (s.setWatch i r).driveOut = s.driveOut := rfl

@[simp] theorem setRunner_pending (r : Runner) : (s.setRunner r).pending = s.pending := rfl
@[simp] theorem setRunner_time (r : Runner) : (s.setRunner r).time = s.time := rfl
@[simp] theorem setRunner_zrg (r : Runner) : (s.setRunner r).zrg = s.zrg := rfl
@[simp] theorem setRunner_sha (r : Runner) : (s.setRunner r).sha = s.sha := rfl
@[simp] theorem setRunner_aqu (r : Runner) : (s.setRunner r).aqu = s.aqu := rfl
@[simp] theorem setRunner_psq (r : Runner) : (s.setRunner r).psq = s.psq := rfl
@[simp] theorem setRunner_dln (r : Runner) : (s.setRunner r).dln = s.dln := rfl
@[simp] theorem setRunner_act (r : Runner) : (s.setRunner r).act = s.act := rfl
@[simp] theorem setRunner_ssc (r : Runner) : (s.setRunner r).ssc = s.ssc := rfl
@[simp] theorem setRunner_wch (r : Runner) : (s.setRunner r).wch = s.wch := rfl
@[simp] theorem setRunner_trq (r : Runner) : (s.setRunner r).trq = s.trq := rfl
@[simp] theorem setRunner_blp (r : Runner) : (s.setRunner r).blp = s.blp := rfl
@[simp] theorem setRunner_ops (r : Runner) : (s.setRunner r).ops = s.ops := rfl
@[simp] theorem setRunner_mail (r : Runner) : (s.setRunner r).mail = s.mail := rfl
@[simp] theorem setRunner_bodyOut (r : Runner) : (s.setRunner r).bodyOut = s.bodyOut := rfl
@[simp] theorem setRunner_driveOut (r : Runner) : (s.setRunner r).driveOut = s.driveOut := rfl

@[simp] theorem setNotices_pending (n : NoticeSet) : (s.setNotices n).pending = s.pending := rfl
@[simp] theorem setNotices_time (n : NoticeSet) : (s.setNotices n).time = s.time := rfl
@[simp] theorem setNotices_zrg (n : NoticeSet) : (s.setNotices n).zrg = s.zrg := rfl
@[simp] theorem setNotices_sha (n : NoticeSet) : (s.setNotices n).sha = s.sha := rfl
@[simp] theorem setNotices_aqu (n : NoticeSet) : (s.setNotices n).aqu = s.aqu := rfl
@[simp] theorem setNotices_psq (n : NoticeSet) : (s.setNotices n).psq = s.psq := rfl
@[simp] theorem setNotices_dln (n : NoticeSet) : (s.setNotices n).dln = s.dln := rfl
@[simp] theorem setNotices_act (n : NoticeSet) : (s.setNotices n).act = s.act := rfl
@[simp] theorem setNotices_ssc (n : NoticeSet) : (s.setNotices n).ssc = s.ssc := rfl
@[simp] theorem setNotices_wch (n : NoticeSet) : (s.setNotices n).wch = s.wch := rfl
@[simp] theorem setNotices_str (n : NoticeSet) : (s.setNotices n).str = s.str := rfl
@[simp] theorem setNotices_trq (n : NoticeSet) : (s.setNotices n).trq = s.trq := rfl
@[simp] theorem setNotices_ops (n : NoticeSet) : (s.setNotices n).ops = s.ops := rfl
@[simp] theorem setNotices_mail (n : NoticeSet) : (s.setNotices n).mail = s.mail := rfl
@[simp] theorem setNotices_bodyOut (n : NoticeSet) : (s.setNotices n).bodyOut = s.bodyOut := rfl
@[simp] theorem setNotices_driveOut (n : NoticeSet) : (s.setNotices n).driveOut = s.driveOut := rfl

@[simp] theorem driveSend_pending (r : DriveTx) : (s.driveSend r).pending = s.pending := rfl
@[simp] theorem driveSend_time (r : DriveTx) : (s.driveSend r).time = s.time := rfl
@[simp] theorem driveSend_zrg (r : DriveTx) : (s.driveSend r).zrg = s.zrg := rfl
@[simp] theorem driveSend_sha (r : DriveTx) : (s.driveSend r).sha = s.sha := rfl
@[simp] theorem driveSend_aqu (r : DriveTx) : (s.driveSend r).aqu = s.aqu := rfl
@[simp] theorem driveSend_psq (r : DriveTx) : (s.driveSend r).psq = s.psq := rfl
@[simp] theorem driveSend_dln (r : DriveTx) : (s.driveSend r).dln = s.dln := rfl
@[simp] theorem driveSend_act (r : DriveTx) : (s.driveSend r).act = s.act := rfl
@[simp] theorem driveSend_ssc (r : DriveTx) : (s.driveSend r).ssc = s.ssc := rfl
@[simp] theorem driveSend_wch (r : DriveTx) : (s.driveSend r).wch = s.wch := rfl
@[simp] theorem driveSend_str (r : DriveTx) : (s.driveSend r).str = s.str := rfl
@[simp] theorem driveSend_trq (r : DriveTx) : (s.driveSend r).trq = s.trq := rfl
@[simp] theorem driveSend_blp (r : DriveTx) : (s.driveSend r).blp = s.blp := rfl
@[simp] theorem driveSend_ops (r : DriveTx) : (s.driveSend r).ops = s.ops := rfl
@[simp] theorem driveSend_mail (r : DriveTx) : (s.driveSend r).mail = s.mail := rfl
@[simp] theorem driveSend_driveOut (r : DriveTx) : (s.driveSend r).driveOut = s.driveOut ++ r.wire := rfl
@[simp] theorem driveSend_bodyOut (r : DriveTx) : (s.driveSend r).bodyOut = s.bodyOut := rfl

/-! ## Reading records -/

@[simp] theorem zone_setPending (z : Zone) (x : List Instr) : (s.setPending x).zone z = s.zone z := rfl
@[simp] theorem zone_setTime (z : Zone) (x : Nat) : (s.setTime x).zone z = s.zone z := rfl
@[simp] theorem zone_setSha (z : Zone) (x : Sha) : (s.setSha x).zone z = s.zone z := rfl
@[simp] theorem zone_setAqu (z : Zone) (x : Aqu) : (s.setAqu x).zone z = s.zone z := rfl
@[simp] theorem zone_setPsq (z : Zone) (x : Psq) : (s.setPsq x).zone z = s.zone z := rfl
@[simp] theorem zone_setDln (z : Zone) (x : Dln) : (s.setDln x).zone z = s.zone z := rfl
@[simp] theorem zone_setAct (z : Zone) (x : Act) : (s.setAct x).zone z = s.zone z := rfl
@[simp] theorem zone_setSsc (z : Zone) (x : Channels ChannelRec) : (s.setSsc x).zone z = s.zone z := rfl
@[simp] theorem zone_setWch (z : Zone) (x : Eight WatchRec) : (s.setWch x).zone z = s.zone z := rfl
@[simp] theorem zone_setStr (z : Zone) (x : Str) : (s.setStr x).zone z = s.zone z := rfl
@[simp] theorem zone_setTrq (z : Zone) (x : Trq) : (s.setTrq x).zone z = s.zone z := rfl
@[simp] theorem zone_setBlp (z : Zone) (x : Blp) : (s.setBlp x).zone z = s.zone z := rfl
@[simp] theorem zone_setOps (z : Zone) (x : Ops) : (s.setOps x).zone z = s.zone z := rfl
@[simp] theorem zone_setMail (z : Zone) (x : Mail) : (s.setMail x).zone z = s.zone z := rfl
@[simp] theorem zone_setBodyOut (z : Zone) (x : List Byte) : (s.setBodyOut x).zone z = s.zone z := rfl
@[simp] theorem zone_setDriveOut (z : Zone) (x : List Byte) : (s.setDriveOut x).zone z = s.zone z := rfl

@[simp] theorem door_setPending (d : Door) (x : List Instr) : (s.setPending x).door d = s.door d := rfl
@[simp] theorem door_setTime (d : Door) (x : Nat) : (s.setTime x).door d = s.door d := rfl
@[simp] theorem door_setSha (d : Door) (x : Sha) : (s.setSha x).door d = s.door d := rfl
@[simp] theorem door_setAqu (d : Door) (x : Aqu) : (s.setAqu x).door d = s.door d := rfl
@[simp] theorem door_setPsq (d : Door) (x : Psq) : (s.setPsq x).door d = s.door d := rfl
@[simp] theorem door_setDln (d : Door) (x : Dln) : (s.setDln x).door d = s.door d := rfl
@[simp] theorem door_setAct (d : Door) (x : Act) : (s.setAct x).door d = s.door d := rfl
@[simp] theorem door_setSsc (d : Door) (x : Channels ChannelRec) : (s.setSsc x).door d = s.door d := rfl
@[simp] theorem door_setWch (d : Door) (x : Eight WatchRec) : (s.setWch x).door d = s.door d := rfl
@[simp] theorem door_setStr (d : Door) (x : Str) : (s.setStr x).door d = s.door d := rfl
@[simp] theorem door_setTrq (d : Door) (x : Trq) : (s.setTrq x).door d = s.door d := rfl
@[simp] theorem door_setBlp (d : Door) (x : Blp) : (s.setBlp x).door d = s.door d := rfl
@[simp] theorem door_setOps (d : Door) (x : Ops) : (s.setOps x).door d = s.door d := rfl
@[simp] theorem door_setMail (d : Door) (x : Mail) : (s.setMail x).door d = s.door d := rfl
@[simp] theorem door_setBodyOut (d : Door) (x : List Byte) : (s.setBodyOut x).door d = s.door d := rfl
@[simp] theorem door_setDriveOut (d : Door) (x : List Byte) : (s.setDriveOut x).door d = s.door d := rfl

@[simp] theorem stepper_setPending (n : Stepper) (x : List Instr) : (s.setPending x).stepper n = s.stepper n := rfl
@[simp] theorem stepper_setTime (n : Stepper) (x : Nat) : (s.setTime x).stepper n = s.stepper n := rfl
@[simp] theorem stepper_setZrg (n : Stepper) (x : Zrg) : (s.setZrg x).stepper n = s.stepper n := rfl
@[simp] theorem stepper_setSha (n : Stepper) (x : Sha) : (s.setSha x).stepper n = s.stepper n := rfl
@[simp] theorem stepper_setAqu (n : Stepper) (x : Aqu) : (s.setAqu x).stepper n = s.stepper n := rfl
@[simp] theorem stepper_setPsq (n : Stepper) (x : Psq) : (s.setPsq x).stepper n = s.stepper n := rfl
@[simp] theorem stepper_setDln (n : Stepper) (x : Dln) : (s.setDln x).stepper n = s.stepper n := rfl
@[simp] theorem stepper_setSsc (n : Stepper) (x : Channels ChannelRec) : (s.setSsc x).stepper n = s.stepper n := rfl
@[simp] theorem stepper_setWch (n : Stepper) (x : Eight WatchRec) : (s.setWch x).stepper n = s.stepper n := rfl
@[simp] theorem stepper_setStr (n : Stepper) (x : Str) : (s.setStr x).stepper n = s.stepper n := rfl
@[simp] theorem stepper_setTrq (n : Stepper) (x : Trq) : (s.setTrq x).stepper n = s.stepper n := rfl
@[simp] theorem stepper_setBlp (n : Stepper) (x : Blp) : (s.setBlp x).stepper n = s.stepper n := rfl
@[simp] theorem stepper_setOps (n : Stepper) (x : Ops) : (s.setOps x).stepper n = s.stepper n := rfl
@[simp] theorem stepper_setMail (n : Stepper) (x : Mail) : (s.setMail x).stepper n = s.stepper n := rfl
@[simp] theorem stepper_setBodyOut (n : Stepper) (x : List Byte) : (s.setBodyOut x).stepper n = s.stepper n := rfl
@[simp] theorem stepper_setDriveOut (n : Stepper) (x : List Byte) : (s.setDriveOut x).stepper n = s.stepper n := rfl

@[simp] theorem deck_setPending (d : Deck) (x : List Instr) : (s.setPending x).deck d = s.deck d := rfl
@[simp] theorem deck_setTime (d : Deck) (x : Nat) : (s.setTime x).deck d = s.deck d := rfl
@[simp] theorem deck_setZrg (d : Deck) (x : Zrg) : (s.setZrg x).deck d = s.deck d := rfl
@[simp] theorem deck_setSha (d : Deck) (x : Sha) : (s.setSha x).deck d = s.deck d := rfl
@[simp] theorem deck_setAqu (d : Deck) (x : Aqu) : (s.setAqu x).deck d = s.deck d := rfl
@[simp] theorem deck_setPsq (d : Deck) (x : Psq) : (s.setPsq x).deck d = s.deck d := rfl
@[simp] theorem deck_setDln (d : Deck) (x : Dln) : (s.setDln x).deck d = s.deck d := rfl
@[simp] theorem deck_setSsc (d : Deck) (x : Channels ChannelRec) : (s.setSsc x).deck d = s.deck d := rfl
@[simp] theorem deck_setWch (d : Deck) (x : Eight WatchRec) : (s.setWch x).deck d = s.deck d := rfl
@[simp] theorem deck_setStr (d : Deck) (x : Str) : (s.setStr x).deck d = s.deck d := rfl
@[simp] theorem deck_setTrq (d : Deck) (x : Trq) : (s.setTrq x).deck d = s.deck d := rfl
@[simp] theorem deck_setBlp (d : Deck) (x : Blp) : (s.setBlp x).deck d = s.deck d := rfl
@[simp] theorem deck_setOps (d : Deck) (x : Ops) : (s.setOps x).deck d = s.deck d := rfl
@[simp] theorem deck_setMail (d : Deck) (x : Mail) : (s.setMail x).deck d = s.deck d := rfl
@[simp] theorem deck_setBodyOut (d : Deck) (x : List Byte) : (s.setBodyOut x).deck d = s.deck d := rfl
@[simp] theorem deck_setDriveOut (d : Deck) (x : List Byte) : (s.setDriveOut x).deck d = s.deck d := rfl

@[simp] theorem channel_setPending (c : Channel) (x : List Instr) : (s.setPending x).channel c = s.channel c := rfl
@[simp] theorem channel_setTime (c : Channel) (x : Nat) : (s.setTime x).channel c = s.channel c := rfl
@[simp] theorem channel_setZrg (c : Channel) (x : Zrg) : (s.setZrg x).channel c = s.channel c := rfl
@[simp] theorem channel_setSha (c : Channel) (x : Sha) : (s.setSha x).channel c = s.channel c := rfl
@[simp] theorem channel_setAqu (c : Channel) (x : Aqu) : (s.setAqu x).channel c = s.channel c := rfl
@[simp] theorem channel_setPsq (c : Channel) (x : Psq) : (s.setPsq x).channel c = s.channel c := rfl
@[simp] theorem channel_setDln (c : Channel) (x : Dln) : (s.setDln x).channel c = s.channel c := rfl
@[simp] theorem channel_setAct (c : Channel) (x : Act) : (s.setAct x).channel c = s.channel c := rfl
@[simp] theorem channel_setWch (c : Channel) (x : Eight WatchRec) : (s.setWch x).channel c = s.channel c := rfl
@[simp] theorem channel_setStr (c : Channel) (x : Str) : (s.setStr x).channel c = s.channel c := rfl
@[simp] theorem channel_setTrq (c : Channel) (x : Trq) : (s.setTrq x).channel c = s.channel c := rfl
@[simp] theorem channel_setBlp (c : Channel) (x : Blp) : (s.setBlp x).channel c = s.channel c := rfl
@[simp] theorem channel_setOps (c : Channel) (x : Ops) : (s.setOps x).channel c = s.channel c := rfl
@[simp] theorem channel_setMail (c : Channel) (x : Mail) : (s.setMail x).channel c = s.channel c := rfl
@[simp] theorem channel_setBodyOut (c : Channel) (x : List Byte) : (s.setBodyOut x).channel c = s.channel c := rfl
@[simp] theorem channel_setDriveOut (c : Channel) (x : List Byte) : (s.setDriveOut x).channel c = s.channel c := rfl

@[simp] theorem watch_setPending (i : Idx8) (x : List Instr) : (s.setPending x).watch i = s.watch i := rfl
@[simp] theorem watch_setTime (i : Idx8) (x : Nat) : (s.setTime x).watch i = s.watch i := rfl
@[simp] theorem watch_setZrg (i : Idx8) (x : Zrg) : (s.setZrg x).watch i = s.watch i := rfl
@[simp] theorem watch_setSha (i : Idx8) (x : Sha) : (s.setSha x).watch i = s.watch i := rfl
@[simp] theorem watch_setAqu (i : Idx8) (x : Aqu) : (s.setAqu x).watch i = s.watch i := rfl
@[simp] theorem watch_setPsq (i : Idx8) (x : Psq) : (s.setPsq x).watch i = s.watch i := rfl
@[simp] theorem watch_setDln (i : Idx8) (x : Dln) : (s.setDln x).watch i = s.watch i := rfl
@[simp] theorem watch_setAct (i : Idx8) (x : Act) : (s.setAct x).watch i = s.watch i := rfl
@[simp] theorem watch_setSsc (i : Idx8) (x : Channels ChannelRec) : (s.setSsc x).watch i = s.watch i := rfl
@[simp] theorem watch_setStr (i : Idx8) (x : Str) : (s.setStr x).watch i = s.watch i := rfl
@[simp] theorem watch_setTrq (i : Idx8) (x : Trq) : (s.setTrq x).watch i = s.watch i := rfl
@[simp] theorem watch_setBlp (i : Idx8) (x : Blp) : (s.setBlp x).watch i = s.watch i := rfl
@[simp] theorem watch_setOps (i : Idx8) (x : Ops) : (s.setOps x).watch i = s.watch i := rfl
@[simp] theorem watch_setMail (i : Idx8) (x : Mail) : (s.setMail x).watch i = s.watch i := rfl
@[simp] theorem watch_setBodyOut (i : Idx8) (x : List Byte) : (s.setBodyOut x).watch i = s.watch i := rfl
@[simp] theorem watch_setDriveOut (i : Idx8) (x : List Byte) : (s.setDriveOut x).watch i = s.watch i := rfl

@[simp] theorem runner_setPending (x : List Instr) : (s.setPending x).runner = s.runner := rfl
@[simp] theorem runner_setTime (x : Nat) : (s.setTime x).runner = s.runner := rfl
@[simp] theorem runner_setZrg (x : Zrg) : (s.setZrg x).runner = s.runner := rfl
@[simp] theorem runner_setSha (x : Sha) : (s.setSha x).runner = s.runner := rfl
@[simp] theorem runner_setAqu (x : Aqu) : (s.setAqu x).runner = s.runner := rfl
@[simp] theorem runner_setPsq (x : Psq) : (s.setPsq x).runner = s.runner := rfl
@[simp] theorem runner_setDln (x : Dln) : (s.setDln x).runner = s.runner := rfl
@[simp] theorem runner_setAct (x : Act) : (s.setAct x).runner = s.runner := rfl
@[simp] theorem runner_setSsc (x : Channels ChannelRec) : (s.setSsc x).runner = s.runner := rfl
@[simp] theorem runner_setWch (x : Eight WatchRec) : (s.setWch x).runner = s.runner := rfl
@[simp] theorem runner_setTrq (x : Trq) : (s.setTrq x).runner = s.runner := rfl
@[simp] theorem runner_setBlp (x : Blp) : (s.setBlp x).runner = s.runner := rfl
@[simp] theorem runner_setOps (x : Ops) : (s.setOps x).runner = s.runner := rfl
@[simp] theorem runner_setMail (x : Mail) : (s.setMail x).runner = s.runner := rfl
@[simp] theorem runner_setBodyOut (x : List Byte) : (s.setBodyOut x).runner = s.runner := rfl
@[simp] theorem runner_setDriveOut (x : List Byte) : (s.setDriveOut x).runner = s.runner := rfl

@[simp] theorem notices_setPending (x : List Instr) : (s.setPending x).notices = s.notices := rfl
@[simp] theorem notices_setTime (x : Nat) : (s.setTime x).notices = s.notices := rfl
@[simp] theorem notices_setZrg (x : Zrg) : (s.setZrg x).notices = s.notices := rfl
@[simp] theorem notices_setSha (x : Sha) : (s.setSha x).notices = s.notices := rfl
@[simp] theorem notices_setAqu (x : Aqu) : (s.setAqu x).notices = s.notices := rfl
@[simp] theorem notices_setPsq (x : Psq) : (s.setPsq x).notices = s.notices := rfl
@[simp] theorem notices_setDln (x : Dln) : (s.setDln x).notices = s.notices := rfl
@[simp] theorem notices_setAct (x : Act) : (s.setAct x).notices = s.notices := rfl
@[simp] theorem notices_setSsc (x : Channels ChannelRec) : (s.setSsc x).notices = s.notices := rfl
@[simp] theorem notices_setWch (x : Eight WatchRec) : (s.setWch x).notices = s.notices := rfl
@[simp] theorem notices_setStr (x : Str) : (s.setStr x).notices = s.notices := rfl
@[simp] theorem notices_setTrq (x : Trq) : (s.setTrq x).notices = s.notices := rfl
@[simp] theorem notices_setOps (x : Ops) : (s.setOps x).notices = s.notices := rfl
@[simp] theorem notices_setMail (x : Mail) : (s.setMail x).notices = s.notices := rfl
@[simp] theorem notices_setBodyOut (x : List Byte) : (s.setBodyOut x).notices = s.notices := rfl
@[simp] theorem notices_setDriveOut (x : List Byte) : (s.setDriveOut x).notices = s.notices := rfl

/-! ## Reading back a record written -/

@[simp] theorem zone_setZones (t : Zones ZoneRec) (z : Zone) : (s.setZones t).zone z = t.get z := rfl
theorem zone_setZone (w z : Zone) (r : ZoneRec) : (s.setZone w r).zone z = if z = w then r else s.zone z :=
  Zones.get_set s.zrg.zones w z r
@[simp] theorem zone_setZone_self (z : Zone) (r : ZoneRec) : (s.setZone z r).zone z = r :=
  Zones.get_set_self s.zrg.zones z r
theorem stepper_setStepper (m n : Stepper) (r : StepperRec) :
    (s.setStepper m r).stepper n = if n = m then r else s.stepper n := Steppers.get_set s.act.steppers m n r
@[simp] theorem stepper_setStepper_self (n : Stepper) (r : StepperRec) : (s.setStepper n r).stepper n = r :=
  Steppers.get_set_self s.act.steppers n r
theorem deck_setDeck (c d : Deck) (r : DeckRec) : (s.setDeck c r).deck d = if d = c then r else s.deck d :=
  Decks.get_set s.act.decks c d r
@[simp] theorem deck_setDeck_self (d : Deck) (r : DeckRec) : (s.setDeck d r).deck d = r :=
  Decks.get_set_self s.act.decks d r
theorem channel_setChannel (b c : Channel) (r : ChannelRec) :
    (s.setChannel b r).channel c = if c = b then r else s.channel c := Channels.get_set s.ssc b c r
@[simp] theorem channel_setChannel_self (c : Channel) (r : ChannelRec) : (s.setChannel c r).channel c = r :=
  Channels.get_set_self s.ssc c r
theorem watch_setWatch (i j : Idx8) (r : WatchRec) : (s.setWatch i r).watch j = if j = i then r else s.watch j :=
  Eight.get_set s.wch i j r
@[simp] theorem watch_setWatch_self (i : Idx8) (r : WatchRec) : (s.setWatch i r).watch i = r :=
  Eight.get_set_self s.wch i r
@[simp] theorem runner_setRunner (r : Runner) : (s.setRunner r).runner = r := rfl
@[simp] theorem notices_setNotices (n : NoticeSet) : (s.setNotices n).notices = n := rfl
@[simp] theorem zone_setDoor (d : Door) (r : DoorRec) (z : Zone) : (s.setDoor d r).zone z = s.zone z := rfl
@[simp] theorem deck_setStepper (n : Stepper) (r : StepperRec) (d : Deck) : (s.setStepper n r).deck d = s.deck d := rfl
@[simp] theorem stepper_setDeck (d : Deck) (r : DeckRec) (n : Stepper) : (s.setDeck d r).stepper n = s.stepper n := rfl
@[simp] theorem stepsOn_setStepper (n : Stepper) (r : StepperRec) : (s.setStepper n r).act.stepsOn = s.act.stepsOn := rfl
@[simp] theorem stepsOn_setDeck (d : Deck) (r : DeckRec) : (s.setDeck d r).act.stepsOn = s.act.stepsOn := rfl

/-! ## Updates that meet -/

@[simp] theorem setPending_setPending (x y : List Instr) : (s.setPending x).setPending y = s.setPending y := rfl
@[simp] theorem setPending_same : s.setPending s.pending = s := rfl
@[simp] theorem setTime_setTime (x y : Nat) : (s.setTime x).setTime y = s.setTime y := rfl
@[simp] theorem setTime_same : s.setTime s.time = s := rfl
@[simp] theorem setZrg_setZrg (x y : Zrg) : (s.setZrg x).setZrg y = s.setZrg y := rfl
@[simp] theorem setZrg_same : s.setZrg s.zrg = s := rfl
@[simp] theorem setSha_setSha (x y : Sha) : (s.setSha x).setSha y = s.setSha y := rfl
@[simp] theorem setSha_same : s.setSha s.sha = s := rfl
@[simp] theorem setAqu_setAqu (x y : Aqu) : (s.setAqu x).setAqu y = s.setAqu y := rfl
@[simp] theorem setAqu_same : s.setAqu s.aqu = s := rfl
@[simp] theorem setPsq_setPsq (x y : Psq) : (s.setPsq x).setPsq y = s.setPsq y := rfl
@[simp] theorem setPsq_same : s.setPsq s.psq = s := rfl
@[simp] theorem setDln_setDln (x y : Dln) : (s.setDln x).setDln y = s.setDln y := rfl
@[simp] theorem setDln_same : s.setDln s.dln = s := rfl
@[simp] theorem setAct_setAct (x y : Act) : (s.setAct x).setAct y = s.setAct y := rfl
@[simp] theorem setAct_same : s.setAct s.act = s := rfl
@[simp] theorem setSsc_setSsc (x y : Channels ChannelRec) : (s.setSsc x).setSsc y = s.setSsc y := rfl
@[simp] theorem setSsc_same : s.setSsc s.ssc = s := rfl
@[simp] theorem setWch_setWch (x y : Eight WatchRec) : (s.setWch x).setWch y = s.setWch y := rfl
@[simp] theorem setWch_same : s.setWch s.wch = s := rfl
@[simp] theorem setStr_setStr (x y : Str) : (s.setStr x).setStr y = s.setStr y := rfl
@[simp] theorem setStr_same : s.setStr s.str = s := rfl
@[simp] theorem setTrq_setTrq (x y : Trq) : (s.setTrq x).setTrq y = s.setTrq y := rfl
@[simp] theorem setTrq_same : s.setTrq s.trq = s := rfl
@[simp] theorem setBlp_setBlp (x y : Blp) : (s.setBlp x).setBlp y = s.setBlp y := rfl
@[simp] theorem setBlp_same : s.setBlp s.blp = s := rfl
@[simp] theorem setOps_setOps (x y : Ops) : (s.setOps x).setOps y = s.setOps y := rfl
@[simp] theorem setOps_same : s.setOps s.ops = s := rfl
@[simp] theorem setMail_setMail (x y : Mail) : (s.setMail x).setMail y = s.setMail y := rfl
@[simp] theorem setMail_same : s.setMail s.mail = s := rfl
@[simp] theorem setBodyOut_setBodyOut (x y : List Byte) : (s.setBodyOut x).setBodyOut y = s.setBodyOut y := rfl
@[simp] theorem setBodyOut_same : s.setBodyOut s.bodyOut = s := rfl
@[simp] theorem setDriveOut_setDriveOut (x y : List Byte) : (s.setDriveOut x).setDriveOut y = s.setDriveOut y := rfl
@[simp] theorem setDriveOut_same : s.setDriveOut s.driveOut = s := rfl

/-- Two states with the same fields are the same. -/
theorem ext_fields {s t : State} (h1 : s.pending = t.pending) (h2 : s.time = t.time) (h3 : s.zrg = t.zrg)
    (h4 : s.sha = t.sha) (h5 : s.aqu = t.aqu) (h6 : s.psq = t.psq) (h7 : s.dln = t.dln) (h8 : s.act = t.act)
    (h9 : s.ssc = t.ssc) (h10 : s.wch = t.wch) (h11 : s.str = t.str) (h12 : s.trq = t.trq) (h13 : s.blp = t.blp)
    (h14 : s.ops = t.ops) (h15 : s.mail = t.mail) (h16 : s.bodyOut = t.bodyOut) (h17 : s.driveOut = t.driveOut) :
    s = t := by
  cases s; cases t; simp_all

end Sys2Proof.Machine.State
end

