-- ==== Sys2Proof/Laws/Store.lean ====
section
/-! SUPPORT. The stage store: reading after writing, and that every write keeps the canonical form. -/

namespace Sys2Proof.Machine

theorem storeWfFrom_cons {lo j : Nat} {r : StageRec} {t : List (Nat × StageRec)} :
    storeWfFrom lo ((j, r) :: t) = true ↔ lo ≤ j ∧ j < storeSize ∧ r ≠ .reset ∧ storeWfFrom (j + 1) t = true := by
  simp [storeWfFrom, and_assoc]

/-- A form that starts higher starts lower as well. -/
theorem storeWfFrom_mono {lo lo' : Nat} (h : lo ≤ lo') :
    ∀ m : List (Nat × StageRec), storeWfFrom lo' m = true → storeWfFrom lo m = true
  | [], _ => rfl
  | (j, r) :: t, hm => by
    rw [storeWfFrom_cons] at hm ⊢
    exact ⟨Nat.le_trans h hm.1, hm.2⟩

/-- Below its lowest index a store reads EMPTY. -/
theorem storeGet_below : ∀ (m : List (Nat × StageRec)) {lo i : Nat}, storeWfFrom lo m = true → i < lo →
    storeGet m i = .reset
  | [], _, _, _, _ => rfl
  | (j, r) :: t, lo, i, hm, hi => by
    rw [storeWfFrom_cons] at hm
    have hj : i ≠ j := by omega
    simp only [storeGet, hj, if_false]
    exact storeGet_below t hm.2.2.2 (by omega)

/-- Reading after a write (R135): the place written reads what was written, every other place reads as before. -/
theorem storeGet_put : ∀ (m : List (Nat × StageRec)) {lo : Nat} (i k : Nat) (r : StageRec), storeWfFrom lo m = true →
    storeGet (storePut m i r) k = if k = i then r else storeGet m k
  | [], lo, i, k, r, _ => by
    by_cases h : r = .reset
    · subst h; simp [storePut, storeGet]
    · simp [storePut, h, storeGet]
  | (j, x) :: t, lo, i, k, r, hm => by
    rw [storeWfFrom_cons] at hm
    by_cases hij : i < j
    · by_cases h : r = .reset
      · subst h
        by_cases hk : k = i
        · subst hk
          have : storeGet ((j, x) :: t) k = .reset :=
            storeGet_below _ (lo := k + 1) (by rw [storeWfFrom_cons]; exact ⟨hij, hm.2⟩) (by omega)
          simpa [storePut, hij] using this
        · simp [storePut, hij, hk]
      · simp [storePut, hij, h, storeGet]
    · by_cases he : i = j
      · subst he
        by_cases h : r = .reset
        · subst h
          by_cases hk : k = i
          · subst hk
            have := storeGet_below t hm.2.2.2 (Nat.lt_succ_self k)
            simpa [storePut] using this
          · simp [storePut, hk, storeGet]
        · by_cases hk : k = i <;> simp [storePut, h, storeGet, hk]
      · have ih := storeGet_put t i k r hm.2.2.2
        simp only [storePut, hij, he, if_false, storeGet, ih]
        by_cases hk : k = j
        · simp [hk, Ne.symm he]
        · simp [hk]

/-- A write keeps the canonical form. -/
theorem storePut_wf : ∀ (m : List (Nat × StageRec)) {lo i : Nat} (r : StageRec), storeWfFrom lo m = true → lo ≤ i →
    i < storeSize → storeWfFrom lo (storePut m i r) = true
  | [], lo, i, r, _, hl, hi => by
    by_cases h : r = .reset
    · simp [storePut, h, storeWfFrom]
    · simp [storePut, h, storeWfFrom, hl, hi]
  | (j, x) :: t, lo, i, r, hm, hl, hi => by
    have hc := storeWfFrom_cons.mp hm
    by_cases hij : i < j
    · by_cases h : r = .reset
      · simpa [storePut, hij, h] using hm
      · simp only [storePut, hij, h, if_true, if_false]
        rw [storeWfFrom_cons]
        exact ⟨hl, hi, h, storeWfFrom_cons.mpr ⟨hij, hc.2⟩⟩
    · by_cases he : i = j
      · subst he
        by_cases h : r = .reset
        · simpa [storePut, h] using storeWfFrom_mono (Nat.le_succ_of_le hl) t hc.2.2.2
        · simp only [storePut, Nat.lt_irrefl, h, if_true, if_false]
          rw [storeWfFrom_cons]
          exact ⟨hl, hi, h, hc.2.2.2⟩
      · simp only [storePut, hij, he, if_false]
        rw [storeWfFrom_cons]
        exact ⟨hc.1, hc.2.1, hc.2.2.1, storePut_wf t r hc.2.2.2 (by omega) hi⟩

/-- Consecutive writes keep the canonical form. -/
theorem storeWriteAll_wf : ∀ (l : List StageBytes) (m : List (Nat × StageRec)) (i : Nat), storeWf m = true →
    i + l.length ≤ storeSize → storeWf (storeWriteAll m i l) = true
  | [], _, _, hm, _ => hm
  | b :: t, m, i, hm, hi => by
    have h : i < storeSize ∧ i + 1 + t.length ≤ storeSize := by simp only [List.length_cons] at hi; omega
    exact storeWriteAll_wf t _ (i + 1) (storePut_wf m _ hm (Nat.zero_le i) h.1) h.2

/-- Reading after consecutive writes (R136): the places written read their new bytes with outcome NONE and pass count 0,
every other place reads as before. -/
theorem storeGet_writeAll : ∀ (l : List StageBytes) (m : List (Nat × StageRec)) (i k : Nat), storeWf m = true →
    i + l.length ≤ storeSize →
    storeGet (storeWriteAll m i l) k =
      if h : i ≤ k ∧ k - i < l.length then ⟨l[k - i], .none, 0⟩ else storeGet m k
  | [], m, i, k, _, _ => by simp [storeWriteAll]
  | b :: t, m, i, k, hm, hi => by
    have h : i < storeSize ∧ i + 1 + t.length ≤ storeSize := by simp only [List.length_cons] at hi; omega
    have hw := storePut_wf m ⟨b, .none, 0⟩ hm (Nat.zero_le i) h.1
    simp only [storeWriteAll]
    rw [storeGet_writeAll t _ (i + 1) k hw h.2, storeGet_put m i k _ hm]
    by_cases hk : i + 1 ≤ k ∧ k - (i + 1) < t.length
    · have h1 : i ≤ k ∧ k - i < (b :: t).length := by simp only [List.length_cons]; omega
      have h2 : k - i = (k - (i + 1)) + 1 := by omega
      rw [dif_pos hk, dif_pos h1]
      simp only [h2, List.getElem_cons_succ]
    · rw [dif_neg hk]
      by_cases he : k = i
      · subst he; simp
      · have h1 : ¬(i ≤ k ∧ k - i < (b :: t).length) := by simp only [List.length_cons]; omega
        rw [if_neg he, dif_neg h1]

/-- Two stores in canonical form that read the same are the same. -/
theorem storeGet_ext : ∀ (m n : List (Nat × StageRec)) {lo : Nat}, storeWfFrom lo m = true → storeWfFrom lo n = true →
    (∀ i, storeGet m i = storeGet n i) → m = n
  | [], [], _, _, _, _ => rfl
  | [], (j, r) :: t, _, _, hn, h => by
    have hc := storeWfFrom_cons.mp hn
    have := h j
    simp only [storeGet, if_true] at this
    exact absurd this.symm hc.2.2.1
  | (j, r) :: t, [], _, hm, _, h => by
    have hc := storeWfFrom_cons.mp hm
    have := h j
    simp only [storeGet, if_true] at this
    exact absurd this hc.2.2.1
  | (j, r) :: t, (k, x) :: u, lo, hm, hn, h => by
    have hc := storeWfFrom_cons.mp hm
    have hd := storeWfFrom_cons.mp hn
    have hjk : j = k := by
      rcases Nat.lt_trichotomy j k with hl | he | hl
      · have h1 := h j
        have h2 : storeGet ((k, x) :: u) j = .reset :=
          storeGet_below _ (storeWfFrom_cons.mpr ⟨Nat.le_refl k, hd.2⟩) hl
        rw [h2] at h1
        simp only [storeGet, if_true] at h1
        exact absurd h1 hc.2.2.1
      · exact he
      · have h1 := h k
        have h2 : storeGet ((j, r) :: t) k = .reset :=
          storeGet_below _ (storeWfFrom_cons.mpr ⟨Nat.le_refl j, hc.2⟩) hl
        rw [h2] at h1
        simp only [storeGet, if_true] at h1
        exact absurd h1.symm hd.2.2.1
    subst hjk
    have hr : r = x := by simpa [storeGet] using h j
    subst hr
    have ht : t = u := storeGet_ext t u hc.2.2.2 hd.2.2.2 fun i => by
      by_cases hi : i = j
      · subst hi
        rw [storeGet_below t hc.2.2.2 (Nat.lt_succ_self i), storeGet_below u hd.2.2.2 (Nat.lt_succ_self i)]
      · simpa [storeGet, hi] using h i
    rw [ht]

/-- A write of one place of the store keeps the canonical form. -/
theorem setStage_wf (s : State) (i : Nat) (r : StageRec) (h : storeWf s.str.store = true) :
    storeWf (s.setStage i r).str.store = true := by
  unfold State.setStage
  split
  · exact storePut_wf _ r h (Nat.zero_le i) ‹_›
  · exact h

/-- The place written reads what was written. -/
theorem stage_setStage (s : State) (i k : Nat) (r : StageRec) (h : storeWf s.str.store = true) (hi : i < storeSize) :
    (s.setStage i r).stage k = if k = i then r else s.stage k := by
  simp only [State.setStage, hi, if_true]
  exact storeGet_put _ i k r h

theorem reset_storeWf : storeWf State.reset.str.store = true := rfl

end Sys2Proof.Machine
end

