-- ==== Sys2Proof/Laws/Keeps.lean ====
section
/-! SUPPORT. Which parts of the state each operation can change: `Keeps bs s t` says that t has every part of s but those
of bs. One lemma per operation; `Keeps.get` reads one part off. -/

set_option Elab.async false

namespace Sys2Proof.Machine

/-- The parts of the state. -/
inductive Part where
  | pending | time | zrg | sha | aqu | psq | dln | steppers | heat | ssc | wch | store | lists | runner | trq
  | queue | link | notices | ops | mail | opEnd | bodyOut | driveOut
  deriving DecidableEq, Repr

/-- A part is the same in two states. `opEnd`: while the runner awaits no end of an operation, none is put on its way and it
goes on awaiting none. `heat` is what the decks and heaters hold, `lists` the entries and counters, `link`
the reply, the hold flag and the link error count. -/
def Part.Same : Part → State → State → Prop
  | .pending, s, t => t.pending = s.pending
  | .time, s, t => t.time = s.time
  | .zrg, s, t => t.zrg = s.zrg
  | .sha, s, t => t.sha = s.sha
  | .aqu, s, t => t.aqu = s.aqu
  | .psq, s, t => t.psq = s.psq
  | .dln, s, t => t.dln = s.dln
  | .steppers, s, t => t.act.steppers = s.act.steppers
  | .heat, s, t => t.act.stepsOn = s.act.stepsOn ∧ t.act.relays = s.act.relays ∧ t.act.decks = s.act.decks
  | .ssc, s, t => t.ssc = s.ssc
  | .wch, s, t => t.wch = s.wch
  | .store, s, t => t.str.store = s.str.store
  | .lists, s, t => t.str.entries = s.str.entries ∧ t.str.counters = s.str.counters
  | .runner, s, t => t.str.runner = s.str.runner
  | .trq, s, t => t.trq = s.trq
  | .queue, s, t => t.blp.queue = s.blp.queue
  | .link, s, t => t.blp.reply = s.blp.reply ∧ t.blp.holdFlag = s.blp.holdFlag ∧ t.blp.linkErrors = s.blp.linkErrors
  | .notices, s, t => t.blp.notices = s.blp.notices
  | .ops, s, t => t.ops = s.ops
  | .mail, s, t => t.mail = s.mail
  | .opEnd, s, t => s.str.runner.awaitsEnd = false → t.str.runner.awaitsEnd = false ∧ t.mail.opEnd = s.mail.opEnd
  | .bodyOut, s, t => t.bodyOut = s.bodyOut
  | .driveOut, s, t => t.driveOut = s.driveOut

theorem Part.same_refl (b : Part) (s : State) : b.Same s s := by cases b <;> simp [Part.Same]

theorem Part.same_trans (b : Part) {s t u : State} (h : b.Same s t) (k : b.Same t u) : b.Same s u := by
  cases b
  case opEnd => exact fun a => ⟨(k (h a).1).1, (k (h a).1).2.trans (h a).2⟩
  all_goals simp_all [Part.Same]

/-- t has every part of s but those of bs. -/
def Keeps (bs : List Part) (s t : State) : Prop := ∀ b, b ∉ bs → b.Same s t

namespace Keeps

variable {as bs cs : List Part} {s t u : State}

theorem refl (bs : List Part) (s : State) : Keeps bs s s := fun b _ => b.same_refl s

/-- One after another. -/
theorem next (h : Keeps as s t) (k : Keeps bs t u) (ha : as ⊆ cs := by decide) (hb : bs ⊆ cs := by decide) :
    Keeps cs s u :=
  fun b hc => b.same_trans (h b fun hm => hc (ha hm)) (k b fun hm => hc (hb hm))

/-- Fewer parts are changed than said. -/
theorem mono (h : Keeps as s t) (ha : as ⊆ cs := by decide) : Keeps cs s t := fun b hc => h b fun hm => hc (ha hm)

/-- A part that is not named is the same. -/
theorem get (h : Keeps bs s t) (b : Part) (hb : b ∉ bs := by decide) : b.Same s t := h b hb

/-- Either of two. -/
theorem ite {c : Prop} [Decidable c] {x y : State} (h : Keeps bs s x) (k : Keeps bs s y) :
    Keeps bs s (if c then x else y) := by split <;> assumption

/-- A walk along a list. -/
theorem foldl {α : Type} (f : State → α → State) (h : ∀ s a, Keeps bs s (f s a)) :
    ∀ (l : List α) (s : State), Keeps bs s (l.foldl f s)
  | [], s => refl bs s
  | a :: l, s => (h s a).next (foldl f h l (f s a)) (List.Subset.refl bs) (List.Subset.refl bs)

end Keeps

/-! ## Updates -/

theorem keeps_setPending (s : State) (x : List Instr) : Keeps [.pending] s (s.setPending x) := by
  intro b h; cases b <;> first | exact rfl | exact fun h => ⟨h, rfl⟩ | exact ⟨rfl, rfl⟩ | exact ⟨rfl, rfl, rfl⟩ | simp at h
theorem keeps_setTime (s : State) (x : Nat) : Keeps [.time] s (s.setTime x) := by
  intro b h; cases b <;> first | exact rfl | exact fun h => ⟨h, rfl⟩ | exact ⟨rfl, rfl⟩ | exact ⟨rfl, rfl, rfl⟩ | simp at h
theorem keeps_setZrg (s : State) (x : Zrg) : Keeps [.zrg] s (s.setZrg x) := by
  intro b h; cases b <;> first | exact rfl | exact fun h => ⟨h, rfl⟩ | exact ⟨rfl, rfl⟩ | exact ⟨rfl, rfl, rfl⟩ | simp at h
theorem keeps_setSha (s : State) (x : Sha) : Keeps [.sha] s (s.setSha x) := by
  intro b h; cases b <;> first | exact rfl | exact fun h => ⟨h, rfl⟩ | exact ⟨rfl, rfl⟩ | exact ⟨rfl, rfl, rfl⟩ | simp at h
theorem keeps_setAqu (s : State) (x : Aqu) : Keeps [.aqu] s (s.setAqu x) := by
  intro b h; cases b <;> first | exact rfl | exact fun h => ⟨h, rfl⟩ | exact ⟨rfl, rfl⟩ | exact ⟨rfl, rfl, rfl⟩ | simp at h
theorem keeps_setPsq (s : State) (x : Psq) : Keeps [.psq] s (s.setPsq x) := by
  intro b h; cases b <;> first | exact rfl | exact fun h => ⟨h, rfl⟩ | exact ⟨rfl, rfl⟩ | exact ⟨rfl, rfl, rfl⟩ | simp at h
theorem keeps_setDln (s : State) (x : Dln) : Keeps [.dln] s (s.setDln x) := by
  intro b h; cases b <;> first | exact rfl | exact fun h => ⟨h, rfl⟩ | exact ⟨rfl, rfl⟩ | exact ⟨rfl, rfl, rfl⟩ | simp at h
theorem keeps_setAct (s : State) (x : Act) : Keeps [.steppers, .heat] s (s.setAct x) := by
  intro b h; cases b <;> first | exact rfl | exact fun h => ⟨h, rfl⟩ | exact ⟨rfl, rfl⟩ | exact ⟨rfl, rfl, rfl⟩ | simp at h
theorem keeps_setSsc (s : State) (x : Channels ChannelRec) : Keeps [.ssc] s (s.setSsc x) := by
  intro b h; cases b <;> first | exact rfl | exact fun h => ⟨h, rfl⟩ | exact ⟨rfl, rfl⟩ | exact ⟨rfl, rfl, rfl⟩ | simp at h
theorem keeps_setWch (s : State) (x : Eight WatchRec) : Keeps [.wch] s (s.setWch x) := by
  intro b h; cases b <;> first | exact rfl | exact fun h => ⟨h, rfl⟩ | exact ⟨rfl, rfl⟩ | exact ⟨rfl, rfl, rfl⟩ | simp at h
theorem keeps_setStr (s : State) (x : Str) : Keeps [.store, .lists, .runner, .opEnd] s (s.setStr x) := by
  intro b h; cases b <;> first | exact rfl | exact fun h => ⟨h, rfl⟩ | exact ⟨rfl, rfl⟩ | exact ⟨rfl, rfl, rfl⟩ | simp at h
theorem keeps_setTrq (s : State) (x : Trq) : Keeps [.trq] s (s.setTrq x) := by
  intro b h; cases b <;> first | exact rfl | exact fun h => ⟨h, rfl⟩ | exact ⟨rfl, rfl⟩ | exact ⟨rfl, rfl, rfl⟩ | simp at h
theorem keeps_setBlp (s : State) (x : Blp) : Keeps [.queue, .link, .notices] s (s.setBlp x) := by
  intro b h; cases b <;> first | exact rfl | exact fun h => ⟨h, rfl⟩ | exact ⟨rfl, rfl⟩ | exact ⟨rfl, rfl, rfl⟩ | simp at h
theorem keeps_setOps (s : State) (x : Ops) : Keeps [.ops] s (s.setOps x) := by
  intro b h; cases b <;> first | exact rfl | exact fun h => ⟨h, rfl⟩ | exact ⟨rfl, rfl⟩ | exact ⟨rfl, rfl, rfl⟩ | simp at h
theorem keeps_setMail (s : State) (x : Mail) : Keeps [.mail, .opEnd] s (s.setMail x) := by
  intro b h; cases b <;> first | exact rfl | exact fun h => ⟨h, rfl⟩ | exact ⟨rfl, rfl⟩ | exact ⟨rfl, rfl, rfl⟩ | simp at h
theorem keeps_mailTrip (s : State) (b : Bool) : Keeps [.mail] s (s.setMail { s.mail with trip := b }) := by
  intro b h; cases b <;> first | exact rfl | exact fun h => ⟨h, rfl⟩ | exact ⟨rfl, rfl⟩ | exact ⟨rfl, rfl, rfl⟩ | simp at h
theorem keeps_setBodyOut (s : State) (x : List Byte) : Keeps [.bodyOut] s (s.setBodyOut x) := by
  intro b h; cases b <;> first | exact rfl | exact fun h => ⟨h, rfl⟩ | exact ⟨rfl, rfl⟩ | exact ⟨rfl, rfl, rfl⟩ | simp at h
theorem keeps_setDriveOut (s : State) (x : List Byte) : Keeps [.driveOut] s (s.setDriveOut x) := by
  intro b h; cases b <;> first | exact rfl | exact fun h => ⟨h, rfl⟩ | exact ⟨rfl, rfl⟩ | exact ⟨rfl, rfl, rfl⟩ | simp at h
theorem keeps_setZones (s : State) (t : Zones ZoneRec) : Keeps [.zrg] s (s.setZones t) := keeps_setZrg s _
theorem keeps_setZone (s : State) (z : Zone) (r : ZoneRec) : Keeps [.zrg] s (s.setZone z r) := keeps_setZrg s _
theorem keeps_setDoor (s : State) (d : Door) (r : DoorRec) : Keeps [.zrg] s (s.setDoor d r) := keeps_setZrg s _
theorem keeps_setStepper (s : State) (n : Stepper) (r : StepperRec) : Keeps [.steppers] s (s.setStepper n r) := by
  intro b h; cases b <;> first | exact rfl | exact fun h => ⟨h, rfl⟩ | exact ⟨rfl, rfl⟩ | exact ⟨rfl, rfl, rfl⟩ | simp at h
theorem keeps_setDeck (s : State) (d : Deck) (r : DeckRec) : Keeps [.heat] s (s.setDeck d r) := by
  intro b h; cases b <;> first | exact rfl | exact fun h => ⟨h, rfl⟩ | exact ⟨rfl, rfl⟩ | exact ⟨rfl, rfl, rfl⟩ | simp at h
theorem keeps_stepsOn (s : State) (t : Zones Nat) : Keeps [.heat] s (s.setAct { s.act with stepsOn := t }) := by
  intro b h; cases b <;> first | exact rfl | exact fun h => ⟨h, rfl⟩ | exact ⟨rfl, rfl⟩ | exact ⟨rfl, rfl, rfl⟩ | simp at h
theorem keeps_relays (s : State) (t : Zones Relays) : Keeps [.heat] s (s.setAct { s.act with relays := t }) := by
  intro b h; cases b <;> first | exact rfl | exact fun h => ⟨h, rfl⟩ | exact ⟨rfl, rfl⟩ | exact ⟨rfl, rfl, rfl⟩ | simp at h
theorem keeps_setChannel (s : State) (c : Channel) (r : ChannelRec) : Keeps [.ssc] s (s.setChannel c r) := keeps_setSsc s _
theorem keeps_setWatch (s : State) (i : Idx8) (r : WatchRec) : Keeps [.wch] s (s.setWatch i r) := keeps_setWch s _
theorem keeps_setRunner (s : State) (r : Runner) : Keeps [.runner, .opEnd] s (s.setRunner r) := by
  intro b h; cases b <;> first | exact rfl | exact fun h => ⟨h, rfl⟩ | exact ⟨rfl, rfl⟩ | exact ⟨rfl, rfl, rfl⟩ | simp at h
theorem keeps_setNotices (s : State) (n : NoticeSet) : Keeps [.notices] s (s.setNotices n) := by
  intro b h; cases b <;> first | exact rfl | exact fun h => ⟨h, rfl⟩ | exact ⟨rfl, rfl⟩ | exact ⟨rfl, rfl, rfl⟩ | simp at h
theorem keeps_driveSend (s : State) (r : DriveTx) : Keeps [.driveOut] s (s.driveSend r) := keeps_setDriveOut s _
theorem keeps_setStage (s : State) (i : Nat) (r : StageRec) : Keeps [.store] s (s.setStage i r) := by
  unfold State.setStage
  split
  · intro b h; cases b <;> first | exact rfl | exact fun h => ⟨h, rfl⟩ | exact ⟨rfl, rfl⟩ | exact ⟨rfl, rfl, rfl⟩ | simp at h
  · exact .refl _ s

/-! ## Trace Queue -/

theorem keeps_raiseTraceState (n : TraceStateNotice) (s : State) : Keeps [.notices] s (raiseTraceState n s) :=
  keeps_setNotices s _
theorem keeps_raiseTraceChange (c : TraceStateCause) (w : Option Idx8) (s : State) :
    Keeps [.notices] s (raiseTraceChange c w s) := keeps_raiseTraceState _ s
theorem keeps_enterFullStopped (s : State) : Keeps [.trq, .notices] s (enterFullStopped s) :=
  (keeps_setTrq s _).next (keeps_raiseTraceChange _ _ _)
theorem keeps_tracePlace (r : TraceRec) (s : State) : Keeps [.trq, .notices] s (tracePlace r s) := by
  unfold tracePlace
  dsimp only
  split
  · exact (keeps_setTrq s _).next (keeps_enterFullStopped _)
  · exact (keeps_setTrq s _).mono
theorem keeps_traceDrop (t : Nat) (s : State) : Keeps [.trq] s (traceDrop t s) := keeps_setTrq s _
theorem keeps_countPeriod (b : TraceBody) (s : State) : Keeps [.trq] s (countPeriod b s) := by
  unfold countPeriod
  exact .ite (keeps_setTrq s _) (.refl _ s)
theorem keeps_offerRecord (b : TraceBody) (s : State) : Keeps [.trq, .notices] s (offerRecord b s).1 := by
  unfold offerRecord
  split
  · exact .refl _ s
  · dsimp only
    split
    · exact (keeps_countPeriod b s).next (keeps_tracePlace _ _)
    · split
      · exact (keeps_countPeriod b s).next (keeps_traceDrop _ _)
      · exact (keeps_countPeriod b s).next (keeps_enterFullStopped _)
theorem keeps_takeSnapshot (s : State) : Keeps [.trq, .notices] s (takeSnapshot s) :=
  (keeps_setTrq s _).next (keeps_offerRecord _ _)
theorem keeps_offer (b : TraceBody) (s : State) : Keeps [.trq, .notices] s (offer b s) := by
  unfold offer
  exact .ite ((keeps_offerRecord b s).next (keeps_takeSnapshot _)) (keeps_offerRecord b s)
theorem keeps_startCapture (s : State) : Keeps [.trq, .notices] s (startCapture s) :=
  (keeps_setTrq s _).next (keeps_takeSnapshot _)
theorem keeps_startTrigger (w : Idx8) (s : State) : Keeps [.trq, .notices] s (startTrigger w s) := by
  have h (s : State) : Keeps [.trq, .notices] s
      (takeSnapshot (raiseTraceChange .watchStart (some w) (setCapturing s))) :=
    ((keeps_setTrq s _).next (keeps_raiseTraceChange _ _ _) (cs := [.trq, .notices])).next (keeps_takeSnapshot _)
  unfold startTrigger
  split
  · exact h s
  · exact h s
  · exact .refl _ s
  · exact .refl _ s
theorem keeps_stopTrigger (w : Idx8) (s : State) : Keeps [.trq, .notices] s (stopTrigger w s) := by
  unfold stopTrigger
  split
  · exact (keeps_setTrq s _).next (keeps_raiseTraceChange _ _ _)
  · exact (keeps_setTrq s _).next (keeps_raiseTraceChange _ _ _)
  · exact .refl _ s
  · exact .refl _ s

/-! ## Drive Line -/

theorem keeps_dlnSendStop (s : State) : Keeps [.dln, .driveOut] s (dlnSendStop s) :=
  (keeps_driveSend s _).next (keeps_setDln _ _)
theorem keeps_dlnStart (p : Nat) (s : State) : Keeps [.dln, .driveOut] s (dlnStart p s).1 := by
  unfold dlnStart
  split
  · exact (keeps_driveSend s _).next (keeps_setDln _ _)
  · exact (keeps_setDln s _).mono
theorem keeps_dlnPower (p : Nat) (s : State) : Keeps [.dln, .driveOut] s (dlnPower p s) := by
  unfold dlnPower
  exact .ite ((keeps_driveSend s _).next (keeps_setDln _ _)) (.refl _ s)
theorem keeps_dlnStop (s : State) : Keeps [.dln, .driveOut] s (dlnStop s) := by
  unfold dlnStop
  exact .ite (.refl _ s) (keeps_dlnSendStop s)
theorem keeps_dlnAttemptFails (r : FailureReason) (s : State) :
    Keeps [.dln, .driveOut] s (dlnAttemptFails r s).1 := by
  unfold dlnAttemptFails
  split
  · exact (keeps_driveSend s _).next (keeps_setDln _ _)
  · exact (keeps_setDln s _).next (keeps_dlnSendStop _)
theorem keeps_dlnStartAck (s : State) : Keeps [.dln] s (dlnStartAck s) := by
  unfold dlnStartAck
  exact .ite (keeps_setDln s _) (.refl _ s)
theorem keeps_dlnRunning (s : State) : Keeps [.dln, .driveOut] s (dlnRunning s).1 := by
  unfold dlnRunning
  split
  · exact (keeps_setDln s _).mono
  · exact (keeps_setDln s _).next (keeps_dlnSendStop _)
  · exact (keeps_setDln s _).next (keeps_dlnSendStop _)
  · exact (keeps_setDln s _).next (keeps_dlnSendStop _)
  · exact (keeps_driveSend s _).next (keeps_setDln _ _)
  · exact .refl _ s
theorem keeps_dlnStatus (v w : Nat) (t : Int) (s : State) : Keeps [.dln] s (dlnStatus v w t s) := keeps_setDln s _
theorem keeps_dlnFault (c : Nat) (s : State) : Keeps [.dln, .driveOut] s (dlnFault c s).1 := by
  unfold dlnFault
  dsimp only
  split
  · exact (keeps_setDln s _).next (keeps_dlnAttemptFails _ _)
  · exact (keeps_setDln s _).next (keeps_dlnAttemptFails _ _)
  · exact (keeps_setDln s _).next (keeps_dlnSendStop _)
  · exact (keeps_setDln s _).mono
  · exact (keeps_setDln s _).mono
  · exact (keeps_setDln s _).mono
theorem keeps_dlnAtRest (h : LastStop) (s : State) : Keeps [.dln] s (dlnAtRest h s) := keeps_setDln s _
theorem keeps_dlnStopped (s : State) : Keeps [.dln, .driveOut] s (dlnStopped s).1 := by
  unfold dlnStopped
  split
  · exact keeps_dlnAttemptFails _ s
  · exact keeps_dlnAttemptFails _ s
  · exact (keeps_dlnAtRest _ s).mono
  · exact (keeps_dlnAtRest _ s).mono
  · exact .refl _ s
  · exact .refl _ s
theorem keeps_dlnAckExpiry (s : State) : Keeps [.dln, .driveOut] s (dlnAckExpiry s).1 := by
  unfold dlnAckExpiry
  split
  · exact keeps_dlnAttemptFails _ s
  · exact .refl _ s
theorem keeps_dlnRunningExpiry (s : State) : Keeps [.dln, .driveOut] s (dlnRunningExpiry s).1 := by
  unfold dlnRunningExpiry
  split
  · exact keeps_dlnAttemptFails _ s
  · exact .refl _ s
theorem keeps_dlnRetryExpiry (s : State) : Keeps [.dln, .driveOut] s (dlnRetryExpiry s) := by
  unfold dlnRetryExpiry
  exact .ite ((keeps_driveSend s _).next (keeps_setDln _ _)) (.refl _ s)
theorem keeps_dlnRefreshExpiry (s : State) : Keeps [.dln, .driveOut] s (dlnRefreshExpiry s) := by
  unfold dlnRefreshExpiry
  exact .ite ((keeps_driveSend s _).next (keeps_setDln _ _)) (.refl _ s)
theorem keeps_dlnSilenceExpiry (s : State) : Keeps [.dln, .driveOut] s (dlnSilenceExpiry s).1 := by
  unfold dlnSilenceExpiry
  split
  · exact keeps_dlnSendStop s
  · exact .refl _ s
theorem keeps_dlnStopExpiry (s : State) : Keeps [.dln, .driveOut] s (dlnStopExpiry s).1 := by
  unfold dlnStopExpiry
  split
  · exact (keeps_dlnAtRest _ s).mono
  · exact .refl _ s
theorem keeps_dlnDropRecord (s : State) : Keeps [.dln] s (dlnDropRecord s) := keeps_setDln s _

/-! ## Operation Slot -/

theorem keeps_reportOpEnd (e : EndState) (s : State) : Keeps [.mail] s (reportOpEnd e s) := by
  unfold reportOpEnd
  split
  · rename_i ha
    intro b h
    cases b <;> first
      | exact rfl
      | exact fun hn => absurd ha (by rw [show s.runner.awaitsEnd = false from hn]; simp)
      | exact ⟨rfl, rfl⟩
      | exact ⟨rfl, rfl, rfl⟩
      | simp at h
  · exact .refl _ s
theorem keeps_raiseOperationEnd (n : OperationEndNotice) (s : State) : Keeps [.notices] s (raiseOperationEnd n s) :=
  keeps_setNotices s _
theorem keeps_slotEnd (e : EndState) (d : Detail) (s : State) : Keeps [.ops, .notices, .mail] s (slotEnd e d s) := by
  unfold slotEnd
  split
  · exact .refl _ s
  · dsimp only
    split
    · exact ((keeps_setOps s _).next (keeps_raiseOperationEnd _ _) (cs := [.ops, .notices])).next (keeps_reportOpEnd _ _)
    · exact (keeps_setOps s _).next (keeps_raiseOperationEnd _ _)
theorem keeps_slotDefrostEnd (c : DefrostEnd) (s : State) : Keeps [.ops, .notices, .mail] s (slotDefrostEnd c s) := by
  unfold slotDefrostEnd
  split
  · exact keeps_slotEnd _ _ s
  · exact .refl _ s
theorem keeps_slotPurgeEnd (e : EndState) (n : Nat) (s : State) : Keeps [.ops, .notices, .mail] s (slotPurgeEnd e n s) := by
  unfold slotPurgeEnd
  split
  · exact keeps_slotEnd _ _ s
  · exact .refl _ s

/-! ## Steppers -/

/-- What a stepper's own moves can change. -/
abbrev stepperParts : List Part := [.steppers, .trq, .notices]

theorem keeps_stepperVerifyEnd (n : Stepper) (s : State) : Keeps stepperParts s (stepperVerifyEnd n s).1 := by
  unfold stepperVerifyEnd
  dsimp only
  exact (keeps_setStepper s n _).next (keeps_offer _ _)
theorem keeps_stepperBeginVerify (k : RefKind) (n : Stepper) (s : State) :
    Keeps stepperParts s (stepperBeginVerify k n s).1 := by
  unfold stepperBeginVerify
  dsimp only
  split
  · exact .refl _ s
  · split
    · exact (keeps_setStepper s n _).next (keeps_stepperVerifyEnd n _)
    · exact (keeps_setStepper s n _).mono
theorem keeps_stepperBecomeIdle (n : Stepper) (s : State) : Keeps stepperParts s (stepperBecomeIdle n s) := by
  unfold stepperBecomeIdle
  exact .ite ((keeps_setStepper s n _).next (keeps_stepperBeginVerify _ n _)) (keeps_setStepper s n _).mono
theorem keeps_stepperTarget (n : Stepper) (g : Nat) (s : State) : Keeps stepperParts s (stepperTarget n g s) := by
  unfold stepperTarget
  dsimp only
  split
  · exact .ite (keeps_setStepper s n _).mono (keeps_setStepper s n _).mono
  · split
    · exact (keeps_setStepper s n _).mono
    · exact .ite ((keeps_setStepper s n _).next (keeps_stepperBecomeIdle n _))
        (.ite (keeps_setStepper s n _).mono (keeps_setStepper s n _).mono)
  · exact (keeps_setStepper s n _).mono
theorem keeps_stepperSeekFrom (n : Stepper) (p : Nat) (s : State) : Keeps stepperParts s (stepperSeekFrom n p s) := by
  unfold stepperSeekFrom
  exact .ite ((keeps_setStepper s n _).next (keeps_stepperBecomeIdle n _)) (keeps_setStepper s n _).mono

/-! ## Plant Sequencer -/

/-- What the Plant Sequencer's work can change. -/
abbrev plantParts : List Part := [.psq, .dln, .driveOut, .steppers, .trq, .notices, .ops, .mail]

theorem keeps_plantRecord (c : PlantCause) (s : State) : Keeps [.trq, .notices] s (plantRecord c s) := keeps_offer _ s
theorem keeps_eevUpdate (s : State) : Keeps (.psq :: stepperParts) s (eevUpdate s) := by
  unfold eevUpdate
  exact .ite (.refl _ s) ((keeps_setPsq s _).next (keeps_stepperTarget _ _ _))
theorem keeps_fanUpdate (s : State) : Keeps [.psq] s (fanUpdate s) := keeps_setPsq s _
theorem keeps_plantOutputs (s : State) : Keeps (.psq :: stepperParts) s (plantOutputs s) :=
  (keeps_fanUpdate s).next (keeps_eevUpdate _)
theorem keeps_enterRampdown (c : PlantCause) (s : State) :
    Keeps (.dln :: .driveOut :: .psq :: stepperParts) s (enterRampdown c s) := by
  unfold enterRampdown
  exact (((keeps_setPsq s _).next (keeps_dlnStop _) (cs := [.psq, .dln, .driveOut])).next (keeps_plantOutputs _)
    (cs := .dln :: .driveOut :: .psq :: stepperParts)).next (keeps_plantRecord _ _)
theorem keeps_defrostEnds (c : DefrostEnd) (s : State) : Keeps [.psq, .ops, .notices, .mail] s (defrostEnds c s) := by
  unfold defrostEnds
  dsimp only
  split
  · exact (keeps_setPsq s _).next (keeps_slotDefrostEnd _ _)
  · exact (keeps_setPsq s _).mono
theorem keeps_defrostEndsInRampdown (c : DefrostEnd) (s : State) : Keeps plantParts s (defrostEndsInRampdown c s) :=
  (keeps_defrostEnds c s).next (keeps_enterRampdown _ _)
theorem keeps_defrostEndsInPlace (c : DefrostEnd) (s : State) :
    Keeps [.psq, .ops, .notices, .mail, .trq] s (defrostEndsInPlace c s) :=
  (keeps_defrostEnds c s).next (keeps_plantRecord _ _)
theorem keeps_raisePlantTrip (r : FaultRecord) (s : State) : Keeps [.notices] s (raisePlantTrip r s) := keeps_setNotices s _
theorem keeps_raiseLockout (s : State) : Keeps [.notices] s (raiseLockout s) := keeps_setNotices s _
theorem keeps_plantTrip (c : TripCause) (k : Nat) (s : State) : Keeps plantParts s (plantTrip c k s) := by
  unfold plantTrip
  dsimp only
  refine Keeps.next (bs := [.mail]) ?_ (keeps_mailTrip _ _) (List.Subset.refl _)
  have h1 : ∀ x : Psq, Keeps plantParts s (plantRecord (.trip c) (plantOutputs ((dlnStop s).setPsq x))) := fun x =>
    (((keeps_dlnStop s).next (keeps_setPsq _ x) (cs := [.dln, .driveOut, .psq])).next (keeps_plantOutputs _)
      (cs := .dln :: .driveOut :: .psq :: stepperParts)).next (keeps_plantRecord _ _)
  have h2 : ∀ (x : Psq) (r : FaultRecord), Keeps plantParts s (raisePlantTrip r
      (if (plantRecord (.trip c) (plantOutputs ((dlnStop s).setPsq x))).psq.defrostMark = .none
        then plantRecord (.trip c) (plantOutputs ((dlnStop s).setPsq x))
        else defrostEndsInPlace .tripped (plantRecord (.trip c) (plantOutputs ((dlnStop s).setPsq x))))) := fun x r =>
    (Keeps.ite (h1 x) ((h1 x).next (keeps_defrostEndsInPlace _ _))).next (keeps_raisePlantTrip r _)
  exact .ite ((h2 _ _).next (keeps_raiseLockout _)) (h2 _ _)
theorem keeps_enterStart (m : RunMode) (c : PlantCause) (s : State) : Keeps plantParts s (enterStart m c s) := by
  unfold enterStart
  have h : ∀ x : Psq, Keeps plantParts s (dlnStart 0 (plantRecord c (plantOutputs (s.setPsq x)))).1 := fun x =>
    (((keeps_setPsq s x).next (keeps_plantOutputs _) (cs := .psq :: stepperParts)).next (keeps_plantRecord c _)
      (cs := .psq :: stepperParts)).next (keeps_dlnStart 0 _)
  exact .ite (h _) ((h _).next (keeps_plantTrip _ _ _))
theorem keeps_enterShift (v : Valve) (c : PlantCause) (s : State) : Keeps plantParts s (enterShift v c s) := by
  unfold enterShift
  exact ((keeps_setPsq s _).next (keeps_plantOutputs _) (cs := .psq :: stepperParts)).next (keeps_plantRecord c _)
theorem keeps_decideStart (s : State) : Keeps plantParts s (decideStart s) := by
  unfold decideStart
  split
  · split
    · exact (keeps_setPsq s _).next (keeps_plantRecord _ _)
    · exact (keeps_setPsq s _).mono
  · exact .ite (keeps_setPsq s _).mono (.ite (keeps_enterStart _ _ s) (keeps_enterShift _ _ s))
theorem keeps_startDecision (s : State) : Keeps plantParts s (startDecision s) := by
  unfold startDecision
  exact .ite (.ite ((keeps_defrostEndsInPlace _ s).next (keeps_decideStart _)) (keeps_decideStart s)) (.refl _ s)
theorem keeps_enterStopped (c : PlantCause) (s : State) : Keeps plantParts s (enterStopped c s) := by
  unfold enterStopped
  exact ((keeps_setPsq s _).next (keeps_plantRecord c _) (cs := plantParts)).next (keeps_startDecision _)
theorem keeps_plantSettle (s : State) : Keeps plantParts s (plantSettle s) := by
  unfold plantSettle
  dsimp only
  split
  · exact (keeps_setPsq s _).next (keeps_enterStopped _ _)
  · exact .ite (.ite ((keeps_setPsq s _).next (keeps_enterStopped _ _)) ((keeps_setPsq s _).next (keeps_enterStart _ _ _)))
      ((keeps_setPsq s _).next (keeps_enterShift _ _ _))
theorem keeps_actOnWanted (s : State) : Keeps plantParts s (actOnWanted s) := by
  unfold actOnWanted
  split
  · split
    · exact .refl _ s
    · split
      · exact ((keeps_setPsq s _).next (keeps_plantOutputs _) (cs := .psq :: stepperParts)).next (keeps_plantRecord _ _)
      · exact ((keeps_setPsq s _).next (keeps_plantOutputs _) (cs := .psq :: stepperParts)).next (keeps_plantRecord _ _)
      · exact (keeps_enterRampdown _ s).mono
  · exact .refl _ s
theorem keeps_plantStarted (s : State) : Keeps plantParts s (plantStarted s) := by
  have h : ∀ x : Psq, Keeps plantParts s (plantRecord .started (plantOutputs (s.setPsq x))) := fun x =>
    ((keeps_setPsq s x).next (keeps_plantOutputs _) (cs := .psq :: stepperParts)).next (keeps_plantRecord _ _)
  unfold plantStarted
  split
  · exact h _
  · exact (h _).next (keeps_actOnWanted _)
  · exact .refl _ s
theorem keeps_plantStopped (s : State) : Keeps plantParts s (plantStopped s) := by
  unfold plantStopped
  dsimp only
  split
  · exact .ite
      (((keeps_setPsq s _).next (keeps_setPsq _ _) (cs := [.psq])).next (keeps_enterStopped _ _))
      (((keeps_setPsq s _).next (keeps_setPsq _ _) (cs := [.psq])).next (keeps_plantRecord _ _))
  · exact (keeps_setPsq s _).next (keeps_plantTrip _ _ _)
  · exact (keeps_setPsq s _).mono
theorem keeps_plantReport (r : DriveReport) (s : State) : Keeps plantParts s (plantReport r s) := by
  unfold plantReport
  split
  · exact keeps_plantStarted s
  · exact keeps_plantStopped s
  · exact .ite (keeps_plantTrip _ _ s) (.refl _ s)
  · exact .ite (keeps_plantTrip _ _ s) (.refl _ s)
  · exact .ite (keeps_plantTrip _ _ s) (.refl _ s)
/-- What follows a report of the Drive Line is the Plant Sequencer's work. -/
theorem keeps_deliver (x : State × Option DriveReport) : Keeps plantParts x.1 (deliver x) := by
  unfold deliver
  split
  · exact keeps_plantReport _ _
  · exact .refl _ _
theorem keeps_plantCommand (p : Nat) (s : State) :
    Keeps (.dln :: .driveOut :: .psq :: stepperParts) s (plantCommand p s) := by
  unfold plantCommand
  exact .ite (((keeps_setPsq s _).next (keeps_dlnPower _ _) (cs := [.psq, .dln, .driveOut])).next (keeps_eevUpdate _))
    (keeps_setPsq s _).mono
theorem keeps_defrostStart (m : DefrostMark) (s : State) : Keeps plantParts s (defrostStart m s) :=
  (keeps_setPsq s _).next (keeps_enterRampdown _ _)
theorem keeps_suctionPeriod (s : State) : Keeps plantParts s (suctionPeriod s) := by
  unfold suctionPeriod
  exact .ite (.ite ((keeps_setPsq s _).next (keeps_plantTrip _ _ _)) (keeps_setPsq s _).mono) (.refl _ s)
theorem keeps_verifyPeriod (s : State) : Keeps plantParts s (verifyPeriod s) := by
  unfold verifyPeriod
  split
  · dsimp only
    split
    · exact .refl _ s
    · exact .ite ((keeps_setPsq s _).next (keeps_plantTrip _ _ _)) (keeps_setPsq s _).mono
    · exact (keeps_setPsq s _).mono
  · exact .refl _ s
theorem keeps_frostPeriod (s : State) : Keeps plantParts s (frostPeriod s) := by
  unfold frostPeriod
  exact .ite (.ite ((keeps_setPsq s _).next (keeps_defrostStart _ _)) (keeps_setPsq s _).mono) (.refl _ s)
theorem keeps_plantPeriod (w : WantedMode) (p : Nat) (s : State) : Keeps plantParts s (plantPeriod w p s) := by
  unfold plantPeriod
  exact (((((keeps_setPsq s _).next (keeps_plantCommand p _) (cs := plantParts)).next (keeps_suctionPeriod _)
    (cs := plantParts)).next (keeps_verifyPeriod _) (cs := plantParts)).next (keeps_frostPeriod _) (cs := plantParts)).next
    ((keeps_actOnWanted _).next (keeps_startDecision _) (cs := plantParts))
theorem keeps_verifySample (s : State) : Keeps [.psq] s (verifySample s) := by
  unfold verifySample
  split
  · exact .ite (keeps_setPsq s _) (.refl _ s)
  · exact .refl _ s
theorem keeps_pressureBack (q : Quality) (s : State) : Keeps plantParts s (pressureBack q s) := by
  unfold pressureBack
  exact .ite (keeps_startDecision s) (.refl _ s)
theorem keeps_plantSuctionSample (v : Int) (s : State) : Keeps plantParts s (plantSuctionSample v s) := by
  unfold plantSuctionSample
  exact ((keeps_setPsq s _).next (keeps_verifySample _) (cs := [.psq])).next (keeps_pressureBack _ _)
theorem keeps_plantDischargeSample (v : Int) (s : State) : Keeps plantParts s (plantDischargeSample v s) := by
  unfold plantDischargeSample
  exact ((Keeps.ite ((keeps_setPsq s _).next (keeps_plantTrip _ _ _) (cs := plantParts)) (keeps_setPsq s _).mono).next
    (keeps_verifySample _) (cs := plantParts)).next (keeps_pressureBack _ _)
theorem keeps_plantCoilSample (v : Int) (s : State) : Keeps plantParts s (plantCoilSample v s) := by
  unfold plantCoilSample
  exact .ite ((keeps_setPsq s _).next (keeps_defrostEndsInRampdown _ _)) (keeps_setPsq s _).mono
theorem keeps_plantOutdoorSample (v : Int) (s : State) : Keeps [.psq] s (plantOutdoorSample v s) := keeps_setPsq s _
theorem keeps_plantQuality (c : Channel) (q : Quality) (s : State) : Keeps plantParts s (plantQuality c q s) := by
  have h : ∀ x : Psq, Keeps plantParts s (plantQuality.pressureLost q (s.setPsq x)) := fun x => by
    unfold plantQuality.pressureLost
    exact .ite ((keeps_setPsq s x).next (keeps_plantTrip _ _ _)) (keeps_setPsq s x).mono
  unfold plantQuality
  split
  · exact h _
  · exact h _
  · exact (keeps_setPsq s _).mono
  · exact .refl _ s
theorem keeps_plantEevFault (s : State) : Keeps plantParts s (plantEevFault s) := by
  unfold plantEevFault
  exact .ite ((keeps_setPsq s _).next (keeps_plantTrip _ _ _)) (keeps_setPsq s _).mono
theorem keeps_plantEevBack (s : State) : Keeps plantParts s (plantEevBack s) :=
  (keeps_setPsq s _).next (keeps_startDecision _)
theorem keeps_plantDefrostAbort (s : State) : Keeps plantParts s (plantDefrostAbort s) := by
  unfold plantDefrostAbort
  refine .ite (.refl _ s) ?_
  split
  · exact keeps_defrostEndsInRampdown _ s
  · exact keeps_defrostEndsInRampdown _ s
  · exact (keeps_defrostEndsInPlace _ s).mono
theorem keeps_plantClearLockout (s : State) : Keeps plantParts s (plantClearLockout s) := by
  unfold plantClearLockout
  exact .ite ((keeps_setPsq s _).next (keeps_enterStopped _ _)) (.refl _ s)
theorem keeps_plantAntiShortCycleExpiry (s : State) : Keeps plantParts s (plantAntiShortCycleExpiry s) := by
  unfold plantAntiShortCycleExpiry
  exact .ite ((keeps_setPsq s _).next (keeps_startDecision _)) (.refl _ s)
theorem keeps_plantDwellExpiry (s : State) : Keeps plantParts s (plantDwellExpiry s) := by
  unfold plantDwellExpiry
  exact .ite ((keeps_setPsq s _).next (keeps_startDecision _)) (.refl _ s)
theorem keeps_plantSettleExpiry (s : State) : Keeps plantParts s (plantSettleExpiry s) := by
  unfold plantSettleExpiry
  exact .ite (keeps_plantSettle s) (.refl _ s)
theorem keeps_plantTripExpiry (s : State) : Keeps plantParts s (plantTripExpiry s) := by
  unfold plantTripExpiry
  exact .ite ((keeps_setPsq s _).next (keeps_enterStopped _ _)) (.refl _ s)
theorem keeps_plantDefrostExpiry (s : State) : Keeps plantParts s (plantDefrostExpiry s) := by
  unfold plantDefrostExpiry
  exact .ite (keeps_defrostEndsInRampdown _ s) (.refl _ s)
theorem keeps_plantRestartState (s : State) : Keeps plantParts s (plantRestartState s) := by
  unfold plantRestartState
  split
  · exact (keeps_enterRampdown _ s).next (keeps_setPsq _ _)
  · exact (keeps_enterRampdown _ s).next (keeps_setPsq _ _)
  · exact (keeps_setPsq s _).mono
  · exact (keeps_setPsq s _).next (keeps_plantRecord _ _)
  · exact (keeps_setPsq s _).next (keeps_plantRecord _ _)
  · exact .refl _ s
  · exact .refl _ s
  · exact .refl _ s
theorem keeps_plantRestart (s : State) : Keeps plantParts s (plantRestart s) := by
  unfold plantRestart
  dsimp only
  have h : Keeps plantParts s (plantRestartState (s.setPsq { s.psq with wanted := .idle, startPending := false })) :=
    (keeps_setPsq s _).next (keeps_plantRestartState _)
  exact .ite (h.next (keeps_setPsq _ _))
    (((h.next (keeps_setPsq _ _) (cs := plantParts)).next (keeps_setPsq _ _) (cs := plantParts)).next
      (keeps_plantRecord _ _))

end Sys2Proof.Machine
end

