-- ==== Sys2Proof/Laws/KeepsUnits.lean ====
section
/-! SUPPORT. Which parts of the state the operations of the other units can change: air, decks, share pass, operations,
sensors, runner. -/

set_option Elab.async false

namespace Sys2Proof.Machine

/-! ## Air Quality Unit -/

/-- What a decision of the Air Quality Unit can change. -/
abbrev airParts : List Part := [.aqu, .steppers, .trq, .notices]

theorem keeps_airCompute (s : State) : Keeps [.aqu] s (airCompute s) := keeps_setAqu s _
theorem keeps_airDecide (s : State) : Keeps airParts s (airDecide s) := by
  unfold airDecide
  exact .ite (keeps_airCompute s).mono ((keeps_airCompute s).next (keeps_stepperTarget _ _ _))
theorem keeps_airDirection (a b : Direction) (s : State) : Keeps [.aqu] s (airDirection a b s) := by
  unfold airDirection
  exact .ite (keeps_setAqu s _) (.refl _ s)
theorem keeps_purgePeriod (s : State) : Keeps [.aqu, .ops, .notices, .mail] s (purgePeriod s) := by
  unfold purgePeriod
  exact .ite (.ite
    (((keeps_setAqu s _).next (keeps_setAqu _ _) (cs := [.aqu])).next (keeps_slotPurgeEnd _ _ _))
    (.ite (((keeps_setAqu s _).next (keeps_setAqu _ _) (cs := [.aqu])).next (keeps_slotPurgeEnd _ _ _))
      (keeps_setAqu s _).mono)) (.refl _ s)
theorem keeps_airPeriod (n : Nat) (s : State) : Keeps [.aqu, .ops, .notices, .mail] s (airPeriod n s) := by
  unfold airPeriod
  exact (((keeps_setAqu s _).next (keeps_setAqu _ _) (cs := [.aqu])).next (keeps_airCompute _) (cs := [.aqu])).next
    (keeps_purgePeriod _)
theorem keeps_holdEnds (c : HoldEnd) (s : State) : Keeps [.aqu, .notices] s (holdEnds c s) :=
  (keeps_setAqu s _).next (keeps_setNotices _ _)
theorem keeps_startHold (l : Nat) (s : State) : Keeps airParts s (startHold l s) := by
  unfold startHold
  exact .ite (.refl _ s) (.ite (keeps_setAqu s _).mono ((keeps_setAqu s _).next (keeps_airDecide _)))
theorem keeps_endHold (s : State) : Keeps airParts s (endHold s) := by
  unfold endHold
  exact .ite ((keeps_holdEnds _ s).next (keeps_airDecide _)) (.refl _ s)
theorem keeps_holdExpiry (s : State) : Keeps airParts s (holdExpiry s) := by
  unfold holdExpiry
  exact .ite ((keeps_holdEnds _ s).next (keeps_airDecide _)) (.refl _ s)
theorem keeps_setMinimum (v : Nat) (s : State) : Keeps airParts s (setMinimum v s) :=
  (keeps_setAqu s _).next (keeps_airDecide _)
theorem keeps_setRate (v : Nat) (s : State) : Keeps airParts s (setRate v s) :=
  (keeps_setAqu s _).next (keeps_airDecide _)
theorem keeps_purgeStart (n : Nat) (s : State) : Keeps airParts s (purgeStart n s) := by
  unfold purgeStart
  exact (Keeps.ite ((keeps_setAqu s _).next (keeps_holdEnds _ _) (cs := [.aqu, .notices]))
    (keeps_setAqu s _).mono).next (keeps_airDecide _)
theorem keeps_purgeAbort (s : State) : Keeps [.aqu, .steppers, .trq, .notices, .ops, .mail] s (purgeAbort s) := by
  unfold purgeAbort
  exact .ite (((keeps_setAqu s _).next (keeps_airDecide _) (cs := airParts)).next (keeps_slotPurgeEnd _ _ _)) (.refl _ s)
theorem keeps_airSample (c : Channel) (v : Int) (s : State) : Keeps [.aqu] s (airSample c v s) := by
  unfold airSample
  split
  · exact keeps_setAqu s _
  · exact keeps_setAqu s _
  · exact keeps_setAqu s _
  · exact .refl _ s
theorem keeps_airQuality (c : Channel) (q : Quality) (s : State) : Keeps [.aqu] s (airQuality c q s) := by
  unfold airQuality
  split
  · exact keeps_setAqu s _
  · exact keeps_setAqu s _
  · exact keeps_setAqu s _
  · exact .refl _ s
theorem keeps_airRestart (s : State) : Keeps airParts s (airRestart s) := (keeps_setAqu s _).next (keeps_airDecide _)

/-! ## Decks -/

theorem keeps_setDeckSteps (d : Deck) (f : Zone → Nat) (s : State) : Keeps [.heat] s (setDeckSteps d f s) :=
  (keeps_stepsOn s _).next (keeps_setDeck _ _ _)
theorem keeps_blockDeck (d : Deck) (s : State) : Keeps [.heat] s (blockDeck d s) := keeps_setDeckSteps d _ s
theorem keeps_deckGrants (g : Zones Nat) (d : Deck) (s : State) : Keeps [.heat] s (deckGrants g d s) :=
  keeps_setDeckSteps d _ s
theorem keeps_actGrants (g : Zones Nat) (s : State) : Keeps [.heat] s (actGrants g s) :=
  ((keeps_relays s _).next (keeps_deckGrants g .upper _) (cs := [.heat])).next (keeps_deckGrants g .lower _)
theorem keeps_deckSetStage (d : Deck) (n : Nat) (s : State) : Keeps [.heat] s (setStage d n s) := by
  unfold setStage
  exact .ite ((keeps_stepsOn s _).next (keeps_setDeck _ _ _)) (.ite (keeps_setDeck s _ _) (keeps_setDeck s _ _))
theorem keeps_deckStage (d : Deck) (n : Nat) (s : State) : Keeps [.heat] s (deckStage d n s) := keeps_deckSetStage d _ s
theorem keeps_deckPass (d : Deck) (m n : Nat) (s : State) : Keeps [.heat] s (deckPass d m n s) := by
  unfold deckPass
  exact .ite ((keeps_setDeck s _ _).next (keeps_deckSetStage _ _ _)) ((keeps_setDeck s _ _).next (keeps_deckStage _ _ _))
theorem keeps_supplySample (d : Deck) (v : Int) (s : State) : Keeps [.heat] s (supplySample d v s) := by
  unfold supplySample
  exact .ite ((keeps_setDeck s _ _).next (keeps_blockDeck _ _)) (keeps_setDeck s _ _)
theorem keeps_supplyQuality (d : Deck) (q : Quality) (s : State) : Keeps [.heat] s (supplyQuality d q s) := by
  unfold supplyQuality
  exact .ite ((keeps_setDeck s _ _).next (keeps_blockDeck _ _)) (keeps_setDeck s _ _)
theorem keeps_spinUpDone (d : Deck) (s : State) : Keeps [.heat] s (spinUpDone d s) := by
  unfold spinUpDone
  exact .ite (keeps_setDeck s _ _) (.refl _ s)
theorem keeps_cutDone (d : Deck) (s : State) : Keeps [.heat] s (cutDone d s) := keeps_setDeck s _ _
theorem keeps_afterRunDone (d : Deck) (s : State) : Keeps [.heat] s (afterRunDone d s) := keeps_setDeck s _ _
theorem keeps_decksRestart (s : State) : Keeps [.heat] s (decksRestart s) :=
  (keeps_blockDeck .upper s).next (keeps_blockDeck .lower _)

/-! ## Share Allocator -/

theorem keeps_passDirection (s : State) : Keeps [.sha, .aqu] s (passDirection s) := by
  unfold passDirection
  exact (keeps_setSha s _).next (keeps_airDirection _ _ _)
theorem keeps_passStore (st : Decks Nat) (b pa : Nat) (p : PassFigures) (s : State) :
    Keeps [.sha, .zrg] s (passStore st b pa p s) := (keeps_setSha s _).next (keeps_setZones _ _)
theorem keeps_actPass (st d : Decks Nat) (p : PassFigures) (s : State) :
    Keeps [.heat, .steppers, .trq, .notices] s (actPass st d p s) := by
  unfold actPass
  have h : ∀ x, Keeps stepperParts x (Zone.all.foldl (fun s z => stepperTarget (zoneFlap z) (p.flaps.get z) s) x) :=
    fun x => Keeps.foldl (bs := stepperParts) (fun s z => stepperTarget (zoneFlap z) (p.flaps.get z) s)
      (fun s z => keeps_stepperTarget _ _ s) Zone.all x
  exact ((((keeps_deckPass .upper _ _ s).next (keeps_deckPass .lower _ _ _) (cs := [.heat])).next (keeps_actGrants _ _)
    (cs := [.heat])).next (h _) (cs := [.heat, .steppers, .trq, .notices])).next (keeps_stepperTarget _ _ _)
theorem keeps_passTrace (b : Nat) (p : PassFigures) (s : State) : Keeps [.trq, .notices] s (passTrace b p s) := by
  unfold passTrace
  exact (keeps_offer _ s).next (Keeps.foldl (bs := [.trq, .notices]) _ (fun s z => keeps_offer _ s) Zone.all _)
/-- A share pass: every part it can change. -/
theorem keeps_sharePass (s : State) :
    Keeps (.zrg :: .sha :: .aqu :: .heat :: plantParts) s (sharePass s) := by
  unfold sharePass
  dsimp only
  exact ((((((keeps_airPeriod _ s).next (keeps_passDirection _) (cs := [.sha, .aqu, .ops, .notices, .mail])).next
    (keeps_passStore _ _ _ _ _) (cs := [.zrg, .sha, .aqu, .ops, .notices, .mail])).next (keeps_plantPeriod _ _ _)
    (cs := .zrg :: .sha :: .aqu :: plantParts)).next (keeps_actPass _ _ _ _)
    (cs := .zrg :: .sha :: .aqu :: .heat :: plantParts))).next (keeps_passTrace _ _ _)
/-- What a new allowance can change. -/
abbrev allowanceParts : List Part := [.sha, .zrg, .heat, .psq, .dln, .driveOut, .steppers, .trq, .notices]
theorem keeps_handStage (d : Deck) (old new : Decks Nat) (s : State) : Keeps [.heat] s (handStage d old new s) := by
  unfold handStage
  exact .ite (keeps_deckStage d _ s) (.refl _ s)
theorem keeps_handShed (old new : Commands) (s : State) : Keeps allowanceParts s (handShed old new s) := by
  unfold handShed
  dsimp only
  have h1 : Keeps allowanceParts s (if new.pe = old.pe then s else plantCommand new.pe s) :=
    .ite (.refl _ s) (keeps_plantCommand _ s).mono
  have h2 := (h1.next (keeps_handStage .upper old.stages new.stages _) (cs := allowanceParts)).next
    (keeps_handStage .lower old.stages new.stages _) (cs := allowanceParts)
  exact .ite h2 (h2.next (keeps_actGrants _ _))
theorem keeps_shedStore (c : Commands) (s : State) : Keeps [.sha, .zrg] s (shedStore c s) :=
  (keeps_setSha s _).next (keeps_setZones _ _)
theorem keeps_shedCheck (s : State) : Keeps allowanceParts s (shedCheck s) := by
  unfold shedCheck
  refine .ite (.refl _ s) (.ite (.refl _ s) ?_)
  exact (keeps_shedStore _ s).next (keeps_handShed _ _ _)
theorem keeps_recomputeA (s : State) : Keeps allowanceParts s (recomputeA s) :=
  (keeps_setSha s _).next (keeps_shedCheck _)
theorem keeps_allowanceWrite (v : Nat) (s : State) : Keeps allowanceParts s (allowanceWrite v s) :=
  (keeps_setSha s _).next (keeps_recomputeA _)
theorem keeps_validityExpiry (s : State) : Keeps allowanceParts s (validityExpiry s) := by
  unfold validityExpiry
  exact .ite (((keeps_setSha s _).next (keeps_setNotices _ _) (cs := [.sha, .notices])).next (keeps_recomputeA _))
    (.refl _ s)
theorem keeps_ageTick (s : State) : Keeps [.sha] s (ageTick s) := keeps_setSha s _
theorem keeps_capWrite (c : Option Nat) (s : State) : Keeps allowanceParts s (capWrite c s) :=
  (keeps_setSha s _).next (keeps_recomputeA _)
theorem keeps_shareRestart (s : State) : Keeps allowanceParts s (shareRestart s) := by
  unfold shareRestart
  exact (((keeps_setSha s _).next (keeps_plantCommand _ _) (cs := allowanceParts)).next (keeps_actGrants _ _)
    (cs := allowanceParts)).next (keeps_recomputeA _)

/-! ## Zone Regulator -/

theorem keeps_zoneWrite (m : Nat) (a : Option ZoneMode) (b : Option Int) (s : State) :
    Keeps [.zrg] s (zoneWrite m a b s) := keeps_setZones s _
theorem keeps_setFreeze (d : Door) (b : Bool) (s : State) : Keeps [.zrg] s (setFreeze d b s) := keeps_setZone s _ _
theorem keeps_doorReport (d : Door) (b : Bool) (s : State) : Keeps [.zrg] s (doorReport d b s) := by
  unfold doorReport
  exact .ite (.refl _ s) (.ite ((keeps_setDoor s _ _).next (keeps_setFreeze _ _ _))
    ((keeps_setDoor s _ _).next (keeps_setFreeze _ _ _)))
theorem keeps_doorExpiry (d : Door) (s : State) : Keeps [.zrg] s (doorExpiry d s) := by
  unfold doorExpiry
  exact .ite ((keeps_setDoor s _ _).next (keeps_setFreeze _ _ _)) (.refl _ s)
theorem keeps_borrowRefresh (s : State) : Keeps [.zrg] s (borrowRefresh s) := keeps_setZones s _
theorem keeps_zonePeriod (s : State) : Keeps [.zrg] s (zonePeriod s) := keeps_setZones s _
theorem keeps_setGains (g : Gains) (s : State) : Keeps [.zrg] s (setGains g s) := keeps_setZrg s _
theorem keeps_setFlapUsable (z : Zone) (b : Bool) (s : State) : Keeps [.zrg] s (setFlapUsable z b s) := keeps_setZone s _ _
theorem keeps_zonesRestart (s : State) : Keeps [.zrg] s (zonesRestart s) := keeps_setZones s _

/-! ## Steppers with their users, and the Operation Slot -/

/-- What an operation, or a stepper's end, can change. -/
abbrev operationParts : List Part := .zrg :: .aqu :: plantParts

theorem keeps_tellFault (n : Stepper) (s : State) : Keeps operationParts s (tellFault n s) := by
  unfold tellFault
  split
  · exact (keeps_setAqu s _).mono
  · exact (keeps_plantEevFault s).mono
  · exact (keeps_setFlapUsable _ _ s).mono
  · exact .refl _ s
theorem keeps_tellBack (n : Stepper) (s : State) : Keeps operationParts s (tellBack n s) := by
  unfold tellBack
  split
  · exact (keeps_setAqu s _).mono
  · exact (keeps_plantEevBack s).mono
  · exact (keeps_setFlapUsable _ _ s).mono
  · exact .refl _ s
theorem keeps_stepperHomeEnd (n : Stepper) (s : State) : Keeps operationParts s (stepperHomeEnd n s) := by
  unfold stepperHomeEnd
  dsimp only
  exact ((Keeps.ite ((keeps_setStepper s n _).next (keeps_tellBack n _) (cs := operationParts))
    (keeps_setStepper s n _).mono).next (keeps_setStepper _ n _) (cs := operationParts)).next (keeps_offer _ _)
theorem keeps_stepperHome (n : Stepper) (s : State) : Keeps operationParts s (stepperHome n s).1 := by
  unfold stepperHome
  dsimp only
  split
  · exact (keeps_setStepper s n _).next (keeps_stepperHomeEnd n _)
  · exact (keeps_setStepper s n _).mono
theorem keeps_stepperFault (n : Stepper) (c : StepperFaultCause) (s : State) :
    Keeps operationParts s (stepperFault n c s) := by
  unfold stepperFault
  dsimp only
  have h : ∀ (r : StepperRec) (m : ActuatorFaultNotice) (b : TraceBody),
      Keeps stepperParts s (offer b (raiseActuatorFault m (s.setStepper n r))) := fun r m b =>
    ((keeps_setStepper s n r).next (keeps_setNotices _ _) (cs := [.steppers, .notices])).next (keeps_offer b _)
  exact .ite (h _ _ _).mono ((h _ _ _).next (keeps_tellFault n _))
theorem keeps_stepperVerify (n : Stepper) (s : State) : Keeps stepperParts s (stepperVerify n s).1 := by
  unfold stepperVerify
  dsimp only
  split
  · exact keeps_stepperBeginVerify _ n s
  · exact keeps_stepperBeginVerify _ n s
  · split
    · exact (keeps_setStepper s n _).mono
    · exact .refl _ s
  · exact .refl _ s
  · exact .refl _ s
  · exact .refl _ s
theorem keeps_stepperReference (n : Stepper) (s : State) : Keeps operationParts s (stepperReference n s).1 := by
  unfold stepperReference
  dsimp only
  split
  · split
    · exact keeps_stepperFault n _ s
    · exact keeps_stepperFault n _ s
    · exact keeps_stepperFault n _ s
  · exact (keeps_setStepper s n _).mono
theorem keeps_stepperSwitchClose (n : Stepper) (s : State) : Keeps operationParts s (stepperSwitchClose n s).1 := by
  unfold stepperSwitchClose
  dsimp only
  split
  · exact (keeps_setStepper s n _).next (keeps_stepperHomeEnd n _)
  · exact (keeps_setStepper s n _).next (keeps_stepperVerifyEnd n _)
  · exact (keeps_setStepper s n _).mono
theorem keeps_stepperSwitchOpen (n : Stepper) (s : State) : Keeps [.steppers] s (stepperSwitchOpen n s) :=
  keeps_setStepper s n _
theorem keeps_stepperAbort (n : Stepper) (s : State) : Keeps stepperParts s (stepperAbort n s) := by
  unfold stepperAbort
  dsimp only
  split
  · exact (keeps_setStepper s n _).mono
  · refine .ite (keeps_setStepper s n _).mono ?_
    split
    · exact (keeps_setStepper s n _).mono
    · exact .ite ((keeps_setStepper s n _).next (keeps_stepperBecomeIdle n _)) (keeps_setStepper s n _).mono
  · exact .refl _ s
theorem keeps_stepperPauseEnd (n : Stepper) (s : State) : Keeps stepperParts s (stepperPauseEnd n s) := by
  unfold stepperPauseEnd
  dsimp only
  split
  · exact .refl _ s
  · exact .ite (keeps_stepperBecomeIdle n s) (keeps_stepperSeekFrom n _ s)
theorem keeps_slotRequest (w : OpWork) (n : Stepper) (s : State) : Keeps operationParts s (slotRequest w n s).1 := by
  unfold slotRequest
  split
  · exact keeps_stepperHome n s
  · exact (keeps_stepperVerify n s).mono
  · exact .refl _ s
  · exact .refl _ s
theorem keeps_setInHand (n : Option Stepper) (s : State) : Keeps [.ops] s (setInHand n s) := keeps_setOps s _
theorem keeps_slotRecord (n : Stepper) (o : StepperOutcome) (s : State) : Keeps [.ops] s (slotRecord n o s) :=
  keeps_setOps s _
theorem keeps_slotFinish (e : EndState) (s : State) : Keeps [.ops, .notices, .mail] s (slotFinish e s) :=
  keeps_slotEnd e _ s
theorem keeps_slotWork (w : OpWork) : ∀ (l : List Stepper) (s : State), Keeps operationParts s (slotWork w l s)
  | [], s => (keeps_slotFinish _ s).mono
  | n :: l, s => by
    unfold slotWork
    refine .ite (keeps_slotFinish _ s).mono ?_
    dsimp only
    have h : Keeps operationParts s (slotRequest w n (setInHand (some n) s)).1 :=
      (keeps_setInHand _ s).next (keeps_slotRequest w n _)
    split
    · exact h
    · exact (h.next (keeps_slotRecord n _ _) (cs := operationParts)).next (keeps_slotWork w l _)
theorem keeps_slotOutcome (n : Stepper) (o : StepperOutcome) (s : State) : Keeps operationParts s (slotOutcome n o s) := by
  unfold slotOutcome
  split
  · exact .ite ((keeps_slotRecord n o s).next (keeps_slotWork _ _ _)) (.refl _ s)
  · exact .refl _ s
/-- What follows a stepper's outcome is the Operation Slot's work. -/
theorem keeps_deliverOutcome (n : Stepper) (x : State × Option StepperOutcome) :
    Keeps operationParts x.1 (deliverOutcome n x) := by
  unfold deliverOutcome
  split
  · exact keeps_slotOutcome n _ _
  · exact .refl _ _
theorem keeps_slotStart (w : OpWork) (src : Source) (s : State) : Keeps operationParts s (slotStart w src s) := by
  unfold slotStart
  dsimp only
  split
  · exact (keeps_setOps s _).next (keeps_slotWork _ _ _)
  · exact (keeps_setOps s _).next (keeps_slotWork _ _ _)
  · exact (keeps_setOps s _).next (keeps_defrostStart _ _)
  · exact (keeps_setOps s _).next (keeps_purgeStart _ _)
theorem keeps_abortInHand (op : Operation) (s : State) : Keeps stepperParts s (abortInHand op s) := by
  unfold abortInHand
  split
  · exact keeps_stepperAbort _ s
  · exact .refl _ s
theorem keeps_slotAbortNow (op : Operation) (s : State) : Keeps operationParts s (slotAbortNow op s) := by
  unfold slotAbortNow
  split
  · exact (keeps_abortInHand op s).next (keeps_slotFinish _ _)
  · exact (keeps_abortInHand op s).next (keeps_slotFinish _ _)
  · exact (keeps_plantDefrostAbort s).mono
  · exact (keeps_purgeAbort s).mono
theorem keeps_slotAbortEmpty (s : State) : Keeps [.ops, .notices] s (slotAbortEmpty s) :=
  (keeps_setOps s _).next (keeps_setNotices _ _)
theorem keeps_abortNowEffect (s : State) : Keeps operationParts s (abortNowEffect s) := by
  unfold abortNowEffect
  split
  · exact keeps_slotAbortNow _ s
  · exact (keeps_slotAbortEmpty s).mono
theorem keeps_abortBoundaryEffect (s : State) : Keeps operationParts s (abortBoundaryEffect s) := by
  unfold abortBoundaryEffect
  split
  · split
    · exact (keeps_plantDefrostAbort s).mono
    · exact (keeps_setOps s _).mono
  · exact (keeps_slotAbortEmpty s).mono
theorem keeps_slotRestart (s : State) : Keeps operationParts s (slotRestart s) := by
  unfold slotRestart
  split
  · split
    · exact (keeps_abortInHand _ s).next (keeps_slotFinish _ _)
    · exact (keeps_abortInHand _ s).next (keeps_slotFinish _ _)
    · exact (keeps_slotEnd _ _ s).mono
    · exact (keeps_slotEnd _ _ s).mono
  · exact .refl _ s

/-! ## Sensors and watches -/

theorem keeps_watchTrip (i : Idx8) (v : Int) (s : State) : Keeps [.wch, .trq, .notices] s (watchTrip i v s) := by
  unfold watchTrip
  dsimp only
  have h1 : ∀ (r : WatchRec) (b : Bool), Keeps [.wch, .trq, .notices] s
      (if b = true then startTrigger i (s.setWatch i r) else s.setWatch i r) := fun r b =>
    .ite ((keeps_setWatch s i r).next (keeps_startTrigger i _)) (keeps_setWatch s i r).mono
  have h2 : ∀ (r : WatchRec) (b : Bool) (x : TraceBody), Keeps [.wch, .trq, .notices] s
      (offer x (if b = true then startTrigger i (s.setWatch i r) else s.setWatch i r)) := fun r b x =>
    (h1 r b).next (keeps_offer x _)
  have h3 : ∀ (r : WatchRec) (b c : Bool) (x : TraceBody), Keeps [.wch, .trq, .notices] s
      (if c = true then stopTrigger i (offer x (if b = true then startTrigger i (s.setWatch i r) else s.setWatch i r))
        else offer x (if b = true then startTrigger i (s.setWatch i r) else s.setWatch i r)) := fun r b c x =>
    .ite ((h2 r b x).next (keeps_stopTrigger i _)) (h2 r b x)
  exact .ite ((h3 _ _ _ _).next (keeps_setNotices _ _)) (h3 _ _ _ _)
theorem keeps_watchTake (i : Idx8) (v : Int) (s : State) : Keeps [.wch, .trq, .notices] s (watchTake i v s) := by
  unfold watchTake
  dsimp only
  split
  · exact .refl _ s
  · exact .ite (.ite (keeps_watchTrip i v s) (keeps_setWatch s i _).mono) (keeps_setWatch s i _).mono
  · exact .ite (keeps_setWatch s i _).mono (.refl _ s)
theorem keeps_watchSample (c : Channel) (v : Int) (s : State) : Keeps [.wch, .trq, .notices] s (watchSample c v s) := by
  unfold watchSample
  exact Keeps.foldl _ (fun s i => .ite (keeps_watchTake i v s) (.refl _ s)) Idx8.all s
theorem keeps_watchConsume (i : Idx8) (s : State) : Keeps [.wch] s (watchConsume i s).1 := by
  unfold watchConsume
  split
  · exact keeps_setWatch s i _
  · exact .refl _ s
theorem keeps_watchesRestart (s : State) : Keeps [.wch] s (watchesRestart s) := keeps_setWch s _
/-- What a sample or a report can change in the user blocks. -/
abbrev userParts : List Part := .zrg :: .sha :: .aqu :: .heat :: plantParts
theorem keeps_handSample (c : Channel) (v : Int) (s : State) : Keeps userParts s (handSample c v s) := by
  unfold handSample
  split <;> first
    | exact (keeps_setZone s _ _).mono
    | exact (keeps_setSha s _).next (keeps_plantOutdoorSample _ _)
    | exact (keeps_plantCoilSample _ s).mono
    | exact (keeps_supplySample _ _ s).mono
    | exact (keeps_plantSuctionSample _ s).mono
    | exact (keeps_plantDischargeSample _ s).mono
    | exact (keeps_airSample _ _ s).mono
    | exact .refl _ s
theorem keeps_zoneQuality (z : Zone) (q : Quality) (s : State) : Keeps [.zrg] s (zoneQuality z q s) := by
  unfold zoneQuality
  split
  · exact keeps_setZone s _ _
  · exact keeps_setZone s _ _
  · exact .refl _ s
theorem keeps_handReport (c : Channel) (q : Quality) (s : State) : Keeps userParts s (handReport c q s) := by
  unfold handReport
  split <;> first
    | exact (keeps_zoneQuality _ _ s).mono
    | exact (keeps_supplyQuality _ _ s).mono
    | exact (keeps_plantQuality _ _ s).mono
    | exact (keeps_airQuality _ _ s).mono
    | exact .refl _ s
theorem keeps_takeSample (c : Channel) (raw : Nat) (s : State) :
    Keeps (.ssc :: .wch :: userParts) s (takeSample c raw s) := by
  unfold takeSample
  split
  · unfold takeFaultSample
    dsimp only
    split
    · exact (keeps_setChannel s c _).next (keeps_handReport _ _ _)
    · exact (keeps_setChannel s c _).mono
    · exact (keeps_setChannel s c _).mono
  · unfold takeGoodSample
    dsimp only
    have h : ∀ (r : ChannelRec) (q : Prop) [Decidable q], Keeps [.ssc, .notices] s
        (if q then raiseChannelState c (s.setChannel c r) else s.setChannel c r) := fun r q _ =>
      .ite ((keeps_setChannel s c r).next (keeps_setNotices _ _)) (keeps_setChannel s c r).mono
    exact ((h _ _).next (keeps_handSample c _ _) (cs := .ssc :: userParts)).next (keeps_watchSample c _ _)
theorem keeps_lossExpiry (c : Channel) (s : State) : Keeps (.ssc :: userParts) s (lossExpiry c s) := by
  unfold lossExpiry
  exact .ite (((keeps_setChannel s c _).next (keeps_handReport c _ _) (cs := .ssc :: userParts)).next
    (keeps_setNotices _ _)) (.refl _ s)

/-! ## Stage Runner -/

/-- What a burst can change: everything but time, the channels, the receive side of the link, and what was sent on it. -/
abbrev burstParts : List Part := .wch :: .store :: .lists :: .runner :: .opEnd :: userParts

theorem keeps_testCond (c : Cond) (s : State) : Keeps [.wch] s (testCond c s).1 := by
  unfold testCond
  split <;> first | exact keeps_watchConsume _ s | exact .refl _ s
theorem keeps_stampStage (i : Nat) (o : StageOutcome) (s : State) :
    Keeps [.store, .trq, .notices] s (stampStage i o s) := (keeps_setStage s i _).next (keeps_offer _ _)
theorem keeps_completeStage (i : Nat) (o : StageOutcome) (n : Nat) (s : State) :
    Keeps [.store, .trq, .notices, .runner, .opEnd] s (completeStage i o n s) :=
  (keeps_stampStage i o s).next (keeps_setRunner _ _)
theorem keeps_stopList (c : StopCause) (i : StopIndex) (s : State) : Keeps [.runner, .opEnd, .notices] s (stopList c i s) :=
  (keeps_setRunner s _).next (keeps_setNotices _ _)
theorem keeps_enterWaiting (w : WaitingOn) (n : Option Nat) (p : Placed) (s : State) :
    Keeps [.runner, .opEnd] s (enterWaiting w n p s) := keeps_setRunner s _

/-- The state in which a performed stage leaves the part. -/
def Performed.state : Performed → State
  | .completed _ _ s => s
  | .rests s => s

theorem keeps_performOperate (i k a : Nat) (w : Bool) (s : State) :
    Keeps (.runner :: .opEnd :: operationParts) s (performOperate i k a w s).state := by
  unfold performOperate
  split
  · split
    · exact (keeps_enterWaiting _ _ _ s).next (keeps_slotStart _ _ _)
    · exact (keeps_setRunner s _).next (keeps_slotStart _ _ _)
  · exact (keeps_enterWaiting _ _ _ s).mono
  · exact .refl _ s
theorem keeps_performWait (i : Nat) (c : Cond) (t : Nat) (s : State) :
    Keeps [.wch, .runner, .opEnd] s (performWait i c t s).state := by
  unfold performWait
  dsimp only
  split
  · exact (keeps_testCond c s).mono
  · exact (keeps_testCond c s).next (keeps_enterWaiting _ _ _ _)
theorem keeps_performStage (i : Nat) (st : Stage) (s : State) : Keeps burstParts s (performStage i st s).state := by
  unfold performStage
  split
  · exact (keeps_zoneWrite _ _ _ s).mono
  · exact (keeps_zoneWrite _ _ _ s).mono
  · exact (keeps_setMinimum _ s).mono
  · exact (keeps_startHold _ s).mono
  · exact (keeps_endHold s).mono
  · exact (keeps_capWrite _ s).mono
  · exact (keeps_performWait _ _ _ s).mono
  · dsimp only
    split <;> exact (keeps_testCond _ s).mono
  · exact (keeps_setStr s _).mono
  · dsimp only
    split
    · exact (keeps_setStr s _).mono
    · exact .refl _ s
  · exact (keeps_performOperate _ _ _ _ s).mono
  · exact (keeps_setWatch s _ _).mono
  · exact (keeps_offer (.mark _ .runner) s).mono (cs := burstParts)
  · exact (keeps_setNotices s _).mono
  · exact (keeps_completeStage i _ _ s).next (keeps_stopList _ _ _)
theorem keeps_performWith (p : Option ResumePoint) (i : Nat) (st : Stage) (s : State) :
    Keeps burstParts s (performWith p i st s).state := by
  unfold performWith
  split
  · unfold performResumed
    split
    · dsimp only
      split
      · exact (keeps_testCond _ s).mono
      · exact (keeps_testCond _ s).next (keeps_enterWaiting _ _ _ _)
    · exact (keeps_enterWaiting _ _ _ s).mono
    · exact .refl _ s
    · exact keeps_performStage i _ s
  · exact keeps_performStage i st s
theorem keeps_burstFrom : ∀ (n : Nat) (p : Option ResumePoint) (s : State), Keeps burstParts s (burstFrom n p s)
  | 0, _, s => .refl _ s
  | n + 1, p, s => by
    unfold burstFrom
    split
    · exact .refl _ s
    · refine .ite (keeps_stopList _ _ s).mono (.ite (keeps_stopList _ _ s).mono
        (.ite (keeps_stopList _ _ s).mono ?_))
      split
      · exact (keeps_stampStage _ _ s).next (keeps_stopList _ _ _)
      · rename_i i _ _ st _
        have h := keeps_performWith p i st s
        split
        · rename_i s1 he
          rw [he] at h
          exact h
        · rename_i o next s1 he
          rw [he] at h
          exact (h.next (keeps_completeStage _ _ _ _) (cs := burstParts)).next (keeps_burstFrom n none _)
theorem keeps_beginBurst (p : Option ResumePoint) (i : Nat) (s : State) : Keeps burstParts s (beginBurst p i s) :=
  (keeps_setRunner s _).next (keeps_burstFrom _ _ _)
theorem keeps_completeWaited (i : Nat) (o : StageOutcome) (n : Nat) (s : State) :
    Keeps burstParts s (completeWaited i o n s) := by
  unfold completeWaited
  exact ((keeps_setRunner s _).next (keeps_completeStage _ _ _ _) (cs := burstParts)).next (keeps_burstFrom _ _ _)
theorem keeps_restartPoll (s : State) : Keeps [.runner, .opEnd] s (restartPoll s) := keeps_setRunner s _
theorem keeps_pollFalse (i : Nat) (t : Option Nat) (s : State) : Keeps burstParts s (pollFalse i t s) := by
  unfold pollFalse
  split
  · exact (keeps_restartPoll s).mono
  · exact .ite ((keeps_setRunner s _).next (keeps_restartPoll _))
      (.ite ((keeps_setRunner s _).next (keeps_completeWaited _ _ _ _)) ((keeps_setRunner s _).next (keeps_restartPoll _)))
theorem keeps_pollExpiry (s : State) : Keeps burstParts s (pollExpiry s) := by
  unfold pollExpiry
  refine .ite ?_ (.refl _ s)
  split
  · unfold pollCondition
    split
    · dsimp only
      exact .ite ((keeps_testCond _ s).next (keeps_completeWaited _ _ _ _))
        ((keeps_testCond _ s).next (keeps_pollFalse _ _ _))
    · exact (keeps_restartPoll s).mono
  · unfold pollSlot
    split
    · rename_i i _ _ _ kind arg w _
      have h := keeps_performOperate i kind arg w s
      split
      · rename_i s1 he
        rw [he] at h
        exact h.mono
      · rename_i o next s1 he
        rw [he] at h
        exact h.next (keeps_completeWaited _ _ _ _)
    · exact (keeps_restartPoll s).mono
  · exact (keeps_restartPoll s).mono
theorem keeps_takeOpEnd (e : EndState) (s : State) : Keeps burstParts s (takeOpEnd e s) := by
  unfold takeOpEnd
  split
  · exact (keeps_setRunner s _).mono
  · exact .ite (keeps_completeWaited _ _ _ s) (.refl _ s)
  · exact .refl _ s
theorem keeps_suspend (s : State) : Keeps [.runner, .opEnd] s (suspend s) := by
  unfold suspend
  dsimp only
  split
  · exact keeps_setRunner s _
  · exact .refl _ s
theorem keeps_takeTrip (s : State) : Keeps [.runner, .opEnd] s (takeTrip s) := by
  unfold takeTrip
  exact .ite (keeps_suspend s) (.refl _ s)
theorem keeps_takeOpEnds : ∀ (n : Nat) (s t : State), takeOpEnds n s = some t → Keeps burstParts s t
  | 0, s, t, h => by
    unfold takeOpEnds at h
    split at h
    · cases h; exact .refl _ s
    · cases h
  | n + 1, s, t, h => by
    unfold takeOpEnds at h
    split at h
    · cases h; exact .refl _ s
    · exact ((keeps_setMail s _).next (keeps_takeOpEnd _ _) (cs := burstParts)).next (keeps_takeOpEnds n _ t h)
/-- The end of a command: what taking the reports to the runner can change; nothing is on its way afterwards. -/
theorem keeps_settle {s t : State} (h : settle s = .next t) : Keeps burstParts s t ∧ t.mail = .empty := by
  unfold settle at h
  split at h
  · cases h
  · rename_i s1 h1
    have hk := keeps_takeOpEnds _ s s1 h1
    cases h
    refine ⟨Keeps.next (bs := [.runner, .opEnd, .mail]) hk ?_ (List.Subset.refl _), rfl⟩
    exact (Keeps.ite (c := s1.mail.trip = true) (keeps_takeTrip s1) (.refl _ s1)).next (keeps_setMail _ _)
theorem keeps_runnerStart (l : Idx8) (b : Bool) (i : Nat) (s : State) : Keeps burstParts s (runnerStart l b i s) :=
  (keeps_setRunner s _).next (keeps_beginBurst _ _ _)
theorem keeps_runnerResume (p : ResumePoint) (s : State) : Keeps burstParts s (runnerResume p s) :=
  (keeps_setRunner s _).next (keeps_beginBurst _ _ _)
theorem keeps_runnerStop (s : State) : Keeps [.runner, .opEnd, .notices] s (runnerStop s) := by
  unfold runnerStop
  split <;> first | exact keeps_stopList _ _ s | exact (keeps_setRunner s _).mono
theorem keeps_resumeAfterWrite (a n : Nat) (s : State) : Keeps [.runner, .opEnd] s (resumeAfterWrite a n s) := keeps_setRunner s _
theorem keeps_runnerRestart (s : State) : Keeps [.runner, .opEnd] s (runnerRestart s) := keeps_setRunner s _

end Sys2Proof.Machine
end

