-- ==== Sys2Proof/Laws/Requests.lean ====
section
/-! SUPPORT. What taking a frame, answering a request and the end of a command come to. -/

namespace Sys2Proof.Machine

/-- A frame that can be taken is taken: the oldest received frame is gone (R170). -/
theorem takeFrame_of_canTake {s : State} {f : Frame} (h : s.CanTake f) : takeFrame f s = some s.taken := by
  obtain ⟨h1, h2, h3⟩ := h
  have hn : ¬(s.blp.reply.isSome = true ∨ maxPayload < f.payload.length) := by simp [h1]; omega
  unfold takeFrame State.taken
  rw [if_neg hn]
  rcases h3 with h3 | h3
  · have : ({ s.blp with queue := s.blp.queue.tail } : Blp) = s.blp := by
      cases hb : s.blp; rw [hb] at h3; simp_all
    rw [this, h3]
    rfl
  · cases hq : s.blp.queue with
    | nil => simp [hq] at h3
    | cons a t => simp only [hq, List.head?_cons, Option.some.injEq] at h3; simp [h3]

/-- A frame is taken only when it can be (R170). -/
theorem canTake_of_takeFrame {s t : State} {f : Frame} (h : takeFrame f s = some t) : s.CanTake f ∧ t = s.taken := by
  have hc : s.CanTake f := by
    unfold takeFrame at h
    split at h
    · cases h
    · rename_i hn
      simp only [not_or, Bool.not_eq_true, Option.isSome_eq_false_iff, Option.isNone_iff_eq_none] at hn
      refine ⟨hn.1, by omega, ?_⟩
      split at h
      · exact .inl ‹_›
      · split at h
        · rename_i hq he; exact .inr (by simp [hq, he])
        · cases h
  rw [takeFrame_of_canTake hc] at h
  exact ⟨hc, (Option.some.inj h).symm⟩

/-- What an owning block answers, with the length of Table 11-2 checked first (R170, R179). -/
def answered (lengthOk : Nat → Bool) (h : List Byte → State → Answered) (p : List Byte) (s : State) : Answered :=
  if lengthOk p.length then h p s else refuse .badLength s

/-- The payload of a reply (R170, R179). -/
def replyPayload (x : Answered) : List Byte := u8 x.2.1.code ++ (if x.2.1.accepted then x.2.2 else [])

theorem requestAnswer_of_canTake {s : State} {k tag : Byte} {p : List Byte} (ok : Nat → Bool)
    (h : List Byte → State → Answered) (hc : s.CanTake ⟨k, tag, p⟩) :
    requestAnswer k ok h tag p s =
      some ((answered ok h p s.taken).1.replying (replyKind k) tag (replyPayload (answered ok h p s.taken))) := by
  simp only [requestAnswer, takeFrame_of_canTake hc, Option.map_some]
  rfl

/-- A request is answered (R170): the owning block's work on the state with the frame taken, then the reply. -/
theorem request_of_canTake {s : State} {k tag : Byte} {p : List Byte} (ok : Nat → Bool)
    (h : List Byte → State → Answered) (hc : s.CanTake ⟨k, tag, p⟩) :
    request k ok h tag p s =
      .next ((answered ok h p s.taken).1.replying (replyKind k) tag (replyPayload (answered ok h p s.taken))) := by
  simp only [request, requestAnswer_of_canTake ok h hc, Option.getD_some]

/-- The same for a request whose work may report to the Stage Runner. -/
theorem requestSettled_of_canTake {s : State} {k tag : Byte} {p : List Byte} (ok : Nat → Bool)
    (h : List Byte → State → Answered) (hc : s.CanTake ⟨k, tag, p⟩) :
    requestSettled k ok h tag p s =
      settle ((answered ok h p s.taken).1.replying (replyKind k) tag (replyPayload (answered ok h p s.taken))) := by
  simp only [requestSettled, requestAnswer_of_canTake ok h hc]

/-- With no operation end on its way, a command ends with the trip event alone (R153). -/
theorem settle_of_noEnd {s : State} (h : s.mail.opEnd = none) :
    settle s = .next ((if s.mail.trip then takeTrip s else s).setMail .empty) := by
  unfold settle
  have : takeOpEnds Config.burstChainLimit s = some s := by
    cases hn : Config.burstChainLimit with
    | zero => simp [takeOpEnds, h]
    | succ n => simp [takeOpEnds, h]
  rw [this]

/-- With nothing on its way to the runner, a command ends as its work left the state. -/
theorem settle_of_empty {s : State} (h : s.mail = .empty) : settle s = .next s := by
  rw [settle_of_noEnd (by rw [h]; rfl)]
  have ht : s.mail.trip = false := by rw [h]; rfl
  have : s.setMail Mail.empty = s := by rw [← h]; rfl
  simp [ht, this]

/-- A report of an operation's end reaches a runner that awaits none (R174: ignored). -/
theorem reportOpEnd_of_notAwaiting {s : State} (e : EndState) (h : s.runner.awaitsEnd = false) : reportOpEnd e s = s := by
  simp [reportOpEnd, h]

end Sys2Proof.Machine
end

