-- ==== Sys2Proof/WellFormed.lean ====
section
/-! DEFINITION. Which commands an event of the part can be: payloads a frame can carry, selectors of the row, figures a
record or the converter can give. `exec` answers for the others too: it leaves the state as it is (log 2, log 26). -/

namespace Sys2Proof

open Sys2Proof.Machine

/-- A payload a frame can carry (Table 11-1). -/
def payloadOk (payload : List Byte) : Bool := decide (payload.length ≤ maxPayload)

/-- A frame of a request with several rows that is the command of the row `own` (log 26). -/
def rowOk (known : Nat → Bool) (own : Nat) (n : Nat) (selector : Option Byte) (payload : List Byte) : Bool :=
  payloadOk payload && (selects known own selector || decide (payload.length ≠ n))

/-- A CONFIG WRITE of a table's row (R179). -/
def configOk (code : Nat) (payload : List Byte) : Bool := payloadOk payload && selects isTableCode code payload.head?

/-- Commands that an event of the part can be. -/
def Instr.wellFormed : Instr → Bool
  | .unknownKindRequest kind _ payload => !isRequestKind kind && payloadOk payload
  | .status _ p | .zoneSet _ p | .zoneRead _ p | .vehicleState _ p | .allowance _ p | .shareRead _ p | .configRead _ p
  | .stagesWrite _ p | .stagesRead _ p | .entryWrite _ p | .runnerStart _ p | .runnerHold _ p | .runnerResume _ p
  | .runnerStop _ p | .watchSet _ p | .watchRead _ p | .traceRead _ p | .traceMark _ p | .noticeHold _ p
  | .noticeRelease _ p | .clearLockout _ p | .restart _ p => payloadOk p
  | .configWriteGains _ p => configOk 1 p
  | .configWriteWeights _ p => configOk 2 p
  | .configWriteKmax _ p => configOk 3 p
  | .configWriteFlapLimits _ p => configOk 4 p
  | .configWritePerformanceTable _ p => configOk 5 p
  | .configWriteBlowerStageTable _ p => configOk 6 p
  | .configWritePlantSettings _ p => configOk 7 p
  | .configWriteStepTimes _ p => configOk 8 p
  | .configWriteChannelConversion _ p => configOk 9 p
  | .airPolicySetMinimum _ p => rowOk isAirAction 0 3 p.head? p
  | .airPolicySetRate _ p => rowOk isAirAction 1 3 p.head? p
  | .airPolicyStartHold _ p => rowOk isAirAction 2 3 p.head? p
  | .airPolicyEndHold _ p => rowOk isAirAction 3 3 p.head? p
  | .operationHome _ p => rowOk isOperationKind 1 3 p.head? p
  | .operationVerify _ p => rowOk isOperationKind 2 3 p.head? p
  | .operationDefrost _ p => rowOk isOperationKind 3 3 p.head? p
  | .operationPurge _ p => rowOk isOperationKind 4 3 p.head? p
  | .abortNow _ p => rowOk isTiming 0 1 p.head? p
  | .abortAtBoundary _ p => rowOk isTiming 1 1 p.head? p
  | .armWatchArm _ p => rowOk isArmAction 0 2 (p.drop 1).head? p
  | .armWatchDisarm _ p => rowOk isArmAction 1 2 (p.drop 1).head? p
  | .traceControlNone _ p => rowOk isTraceAction 0 5 p.head? p
  | .traceControlArm _ p => rowOk isTraceAction 1 5 p.head? p
  | .traceControlStart _ p => rowOk isTraceAction 2 5 p.head? p
  | .traceControlStop _ p => rowOk isTraceAction 3 5 p.head? p
  | .driveStatus speed power temperature => statusFigures speed power temperature
  | .driveFaultRecord code => decide (code ≤ 255)
  | .channelSample _ raw => decide (raw ≤ rawMax)
  | .powerOn _ | .frameReceived _ | .replySend | .noticeSend | .openDoorTimerExpiry _ | .validityTimerExpiry
  | .allowanceAgeTick | .holdTimerExpiry | .pollTimerExpiry | .controlPeriodExpiry | .antiShortCycleExpiry
  | .dwellTimerExpiry | .settleTimerExpiry | .tripTimerExpiry | .defrostTimerExpiry | .driveRecordDropped _
  | .driveStartAck | .driveRunning | .driveStopped | .ackTimerExpiry | .runningTimerExpiry | .retryTimerExpiry
  | .refreshTimerExpiry | .silenceTimerExpiry | .stopTimerExpiry | .seekStep _ | .reversalPauseExpiry _ | .homeStep _
  | .verifyStep _ | .homeSwitchClose _ | .homeSwitchOpen _ | .spinUpExpiry _ | .overheatCutExpiry _
  | .afterRunExpiry _ | .lossTimerExpiry _ | .partialFrameDiscarded => true

end Sys2Proof
end

