-- ==== Sys2Proof/Tests/Slice0.lean ====
section
/-! SUPPORT. Tests of single commands, their expected figures taken from the manual's worked sequences and tables; the
smoke tests of WellFormed; and, for each statement with hypotheses, states and operands that meet them. -/

namespace Sys2Proof.Tests

open Sys2Proof Sys2Proof.Machine Sys2Proof.Spec

/-! ## States to test in -/

/-- Whether an outcome is a next state with a property. -/
def answers (o : Host.Outcome State Fault Refusal) (p : State → Bool) : Bool :=
  match o with
  | .next t => p t
  | _ => false

theorem next_of_answers {o : Host.Outcome State Fault Refusal} {p : State → Bool} (h : answers o p = true) :
    ∃ t, o = .next t ∧ p t = true := by
  cases o <;> simp_all [answers]

/-- A state with one frame received and no reply waiting. -/
def given (s : State) (f : Frame) : State := s.setBlp { s.blp with queue := [f], reply := none }

theorem given_canTake (s : State) (f : Frame) (h : f.payload.length ≤ maxPayload) : (given s f).CanTake f :=
  ⟨rfl, h, .inr rfl⟩

theorem given_takes (s : State) (f : Frame) (h : Nat.ble f.payload.length maxPayload = true) : (given s f).CanTake f :=
  given_canTake s f (Nat.le_of_ble_eq_true h)

/-- A request given to a state, and what its reply carries. -/
def replies (c : Instr) (s : State) (payload : List Byte) : Bool :=
  match c.requestForm with
  | some f => answers (exec c (given s f.frame)) fun t => t.blp.reply.map Frame.payload == some payload
  | none => false

def s0 : State := .reset

/-- The zones of Table 1-7, with every channel GOOD. -/
def workedPeriod : State :=
  let z (m : ZoneMode) (sp me i : Int) (fr : Bool) (r : ZoneRec) : ZoneRec :=
    { r with mode := m, setpoint := sp, measured := some me, integrator := i, doorFreeze := fr, sensorUse := .good }
  let k := s0.zrg.zones
  (s0.setZones ⟨z .regulate 220 195 100 false k.u1, z .regulate 220 218 40 false k.u2, z .regulate 220 232 (-50) false k.u3,
    z .regulate 240 180 300 false k.l1, z .regulate 220 205 80 true k.l2, z .vent 220 211 150 false k.e⟩).setSsc
      (.ofFn fun c => { s0.channel c with quality := .good })

/-- RUN in HEAT with both blowers running (Section 2.15), its drive RUNNING. -/
def heating : State :=
  let r (d : Deck) : DeckRec := { s0.deck d with stage := 1, running := true, supply := .good }
  (((((s0.setSha { s0.sha with
      outdoor := some (-50), direction := .heat, command := 1500, hostValue := 6000, inUse := 6000, effective := 6000
      allowState := .fresh, age := 0, validityTimer := some 10000 }).setPsq { s0.psq with
      state := .run, mode := some .heat, wanted := .heat, valve := .heatSide, command := 1500, antiShortCycle := none
      fanOn := true, pSuc := ⟨some 50, .good⟩, pDis := ⟨some 100, .good⟩ }).setDln { s0.dln with
      link := .running, attempts := 1, compressorRunning := true, powerSent := 1500, refreshTimer := some 500
      silenceTimer := some 2000 }).setDeck .upper (r .upper)).setDeck .lower (r .lower))

/-- The demands of Table 2-5, as a control period leaves them with Kp 1, Ki 0 and the setpoint 220. -/
def workedPass : State :=
  let z (d : Int) (r : ZoneRec) : ZoneRec :=
    { r with mode := .regulate, integrator := d - 10, measured := some 210, sensorUse := .good, occupancy := 10 }
  let k := s0.zrg.zones
  ((heating.setZrg { s0.zrg with
      zones := ⟨z 731 k.u1, z 500 k.u2, z 400 k.u3, z 900 k.l1, z 600 k.l2, z 1000 k.e⟩
      gains := ⟨1, 0, 1000, 20, 5⟩ }).setSsc (.ofFn fun c => { s0.channel c with quality := .good }))

/-- What that pass hands out, with grants of one step for U1, L1 and U2 (Section 2.16). -/
def workedShed : State :=
  let g (z : Zone) (n : Nat) (s : State) : State := s.setZone z { s.zone z with granted := n }
  let s := g .u1 1 (g .l1 1 (g .u2 1 heating))
  s.setSha { s.sha with
    command := 3000, stages := ⟨3, 4⟩, last := { s.sha.last with order := [.u1, .l1, .u2, .u3, .l2, .e] } }

/-- A STOP as it stands on the Drive Line (Table 11-9), its check computed by hand. -/
def stopBytes : List Byte := [0xA5, 3, 0, 0x48, 0x5C]

def onDrive (l : LinkState) (attempts : Nat) (s : State) : State :=
  s.setDln { s0.dln with link := l, attempts := attempts }

def inPlant (p : PlantState) (m : Option RunMode) (s : State) : State :=
  s.setPsq { s0.psq with state := p, mode := m }

def withStage (i : Nat) (b : StageBytes) (s : State) : State :=
  s.setStr { s.str with store := storePut s.str.store i ⟨b, .none, 0⟩ }

def withEntry (i : Nat) (s : State) : State := s.setStr { s.str with entries := s.str.entries.set .i0 (some i) }

/-- FAD seeking downward (Table 6-5). -/
def seekingFad (p target moved : Nat) (due : Bool) (timer : StepTimer) : State :=
  s0.setStepper .fad { s0.stepper .fad with
    state := .seeking, position := some p, target := target, stepsMoved := moved, verifyDue := due, motion := .down
    timer := timer }

/-- F-L1 in a home or verify (Table 6-6). -/
def referenceL1 (st : StepperState) (k : RefKind) (prior count limit : Nat) (timer : StepTimer) : State :=
  s0.setStepper .fL1 { s0.stepper .fL1 with
    state := st, refKind := k, prior := prior, count := count, limit := limit, motion := .down, timer := timer
    position := if k = .home then none else some (prior - count), target := 182 }

/-- Watch 2 of Table 7-6 with P-DIS GOOD. -/
def watching (count : Nat) (st : WatchState) : State :=
  ((s0.setWatch .i2 { s0.watch .i2 with
    channel := .pDis, threshold := 250, hysteresis := 20, persistence := 3, notify := true, traceStart := true
    autoRearm := true, state := st, count := count, tripValue := some 257 }).setChannel .pDis
      { s0.channel .pDis with quality := .good, value := some 255 })

/-! ## Terms that WellFormed refuses, one for each check, beside one it takes -/

set_option maxRecDepth 100000 in
theorem test_wf_payload_too_long : (Instr.zoneSet 0 (List.replicate 201 0)).wellFormed = false := by decide
set_option maxRecDepth 100000 in
theorem test_wf_payload_longest : (Instr.zoneSet 0 (List.replicate 200 0)).wellFormed = true := by decide
theorem test_wf_unknown_kind_is_request : (Instr.unknownKindRequest 0x1C 0 []).wellFormed = false := by decide
theorem test_wf_unknown_kind : (Instr.unknownKindRequest 0x1D 0 []).wellFormed = true := by decide
theorem test_wf_config_of_other_table : (Instr.configWriteGains 0 [2]).wellFormed = false := by decide
theorem test_wf_config_of_no_table : (Instr.configWriteKmax 0 [10]).wellFormed = true := by decide
theorem test_wf_air_policy_of_other_row : (Instr.airPolicySetRate 0 [2, 0, 0]).wellFormed = false := by decide
theorem test_wf_operation_of_other_row : (Instr.operationHome 0 [2, 0, 1]).wellFormed = false := by decide
theorem test_wf_abort_of_other_row : (Instr.abortNow 0 [1]).wellFormed = false := by decide
theorem test_wf_arm_watch_of_other_row : (Instr.armWatchArm 0 [0, 1]).wellFormed = false := by decide
theorem test_wf_trace_control_of_other_row : (Instr.traceControlArm 0 [2, 0, 0, 0, 0]).wellFormed = false := by decide
theorem test_wf_drive_status_figure : (Instr.driveStatus 0 0 128).wellFormed = false := by decide
theorem test_wf_drive_fault_code : (Instr.driveFaultRecord 256).wellFormed = false := by decide
theorem test_wf_sample_above_converter : (Instr.channelSample .tOut 4096).wellFormed = false := by decide

/-! ## Single commands -/

set_option maxRecDepth 100000 in
/-- Tables 1-7 and 1-8. -/
theorem test_controlPeriodExpiry_zones : answers (exec .controlPeriodExpiry workedPeriod) (fun t =>
    Zone.all.map (fun z => ((t.zone z).integrator, (t.zone z).demand, (t.zone z).inBand)) ==
      [(106, 731, false), (40, 90, true), (-53, -353, false), (300, 1000, false), (80, 455, false), (150, 0, false)]) =
    true := by decide

set_option maxRecDepth 100000 in
/-- Section 2.15: the shares and grants of Table 2-6, the flap targets of step 7. -/
theorem test_controlPeriodExpiry_pass : answers (exec .controlPeriodExpiry workedPass) (fun t =>
    let r := t.sha.last
    (r.need, r.a, r.b, r.pa, r.pe, r.qd, r.totalShortfall, r.heaterPower) ==
      (8893, 6000, 1500, 4500, 3000, 7350, 1543, 1500) &&
    Zone.all.map (fun z => ((t.zone z).share, (t.zone z).shortfall, (t.zone z).granted, (t.stepper (zoneFlap z)).target)) ==
      [(1816, 377, 1, 151), (1239, 261, 1, 110), (991, 209, 0, 92), (1487, 313, 1, 182), (991, 209, 0, 128),
        (826, 174, 0, 200)] && r.order == [.u1, .l1, .u2, .u3, .l2, .e]) = true := by decide

set_option maxRecDepth 100000 in
/-- Section 2.16, 0.8 s: ALLOWANCE 4200 takes every heater step and leaves 2700 W to the compressor. -/
theorem test_allowance_sheds : answers (exec (.allowance 1 [0x10, 0x68]) (given workedShed ⟨5, 1, [0x10, 0x68]⟩)) (fun t =>
    (t.sha.effective, t.sha.command, t.sha.last.b, t.sha.last.shed, zoneSum fun z => (t.zone z).granted) ==
      (4200, 2700, 1500, true, 0) && t.sha.last.pa == 2700 && t.driveOut == [0xA5, 2, 2, 0x0A, 0x8C, 0xB8, 0x07]) = true := by decide

/-- R24: after 10 s without an allowance at most 4000 W stay in use. -/
theorem test_validityTimerExpiry : answers (exec .validityTimerExpiry heating) (fun t =>
    (t.sha.inUse, t.sha.effective, t.sha.hostValue) == (4000, 4000, 6000) &&
      t.notices.allowanceExpired == some ⟨4000, 0⟩) = true := by decide

theorem test_allowanceAgeTick_saturates : answers (exec .allowanceAgeTick s0) (fun t => t.sha.age == 65535) = true := by
  decide

/-- R2, R3: zones U1 and E; the setpoint 400 is clamped to 300 and told (R171). -/
theorem test_zoneSet : replies (.zoneSet 1 [0x21, 2, 0x01, 0x90]) s0 [1] = true := by decide
theorem test_zoneSet_mask_0 : replies (.zoneSet 1 [0, 2, 0, 200]) s0 [4] = true := by decide

/-- R179, Table 11-3: the fields of a zone after power-on, NONE as 0x8000 (R180). -/
theorem test_zoneRead : replies (.zoneRead 1 [5]) s0
    [0, 0, 0, 220, 0x80, 0, 3, 0, 0, 0, 0, 1, 0, 0, 0, 0, 0, 0, 0, 0, 4, 0, 20, 0, 200, 1] = true := by decide

/-- R18: door D1 opens and its timer starts at 120 s; occupancy 41 is clamped. -/
theorem test_vehicleState : answers (exec (.vehicleState 1 [1, 41, 0, 0, 0, 0, 0])
    (given s0 ⟨4, 1, [1, 41, 0, 0, 0, 0, 0]⟩)) (fun t =>
      t.door .d1 == ⟨true, some 120000⟩ && (t.zone .e).doorFreeze && (t.zone .u1).occupancy == 40 &&
        t.blp.reply == some ⟨0x84, 1, [1]⟩) = true := by decide

theorem test_openDoorTimerExpiry : answers (exec (.openDoorTimerExpiry .d2) (s0.setDoor .d2 ⟨true, some 100⟩)) (fun t =>
    t.door .d2 == ⟨true, none⟩) = true := by decide

/-- R4: a pair whose minimum is not below its maximum is corrected. -/
theorem test_configWriteFlapLimits : answers (exec (.configWriteFlapLimits 1 (4 :: (List.replicate 6 [0, 210, 0, 40]).flatten))
    (given s0 ⟨7, 1, 4 :: (List.replicate 6 [0, 210, 0, 40]).flatten⟩)) (fun t =>
      ((t.zone .u1).flapMin, (t.zone .u1).flapMax) == (199, 200)) = true := by decide

/-- R101: 15 becomes 20, 30 becomes 40, values below 5 and above 40 the end values. -/
theorem test_configWriteStepTimes : answers (exec (.configWriteStepTimes 1 [8, 15, 30, 0, 255, 5, 7, 8, 41])
    (given s0 ⟨7, 1, [8, 15, 30, 0, 255, 5, 7, 8, 41]⟩)) (fun t =>
      Stepper.all.map (fun n => (t.stepper n).stepTime) == [20, 40, 5, 40, 5, 5, 10, 40]) = true := by decide

/-- R32: temperatures that do not rise strictly are refused with BAD_TABLE. -/
theorem test_configWritePerformanceTable_bad :
    replies (.configWritePerformanceTable 1 (5 :: (List.replicate 6 [0, 1, 1, 0, 1, 0]).flatten)) s0 [5] = true := by decide

/-- R9: the default gains as they stand. -/
theorem test_configRead_gains : replies (.configRead 1 [1]) s0 [0, 1, 0, 25, 0, 4, 2, 0x58, 0, 2, 0, 5] = true := by decide

theorem test_status_of_no_section : replies (.status 1 [10]) s0 [4] = true := by decide

/-- R50, R51: a minimum of 300 asks for 300 × 400 / 1000 = 120. -/
theorem test_airPolicySetMinimum : answers (exec (.airPolicySetMinimum 1 [0, 1, 44]) (given s0 ⟨9, 1, [0, 1, 44]⟩)) (fun t =>
    (t.aqu.phi, t.aqu.damper, (t.stepper .fad).target) == (300, 120, 120)) = true := by decide

/-- R52, R53: a hold of 1000 s is clamped to 600 s and closes the damper; its expiry ends it by LIMIT. -/
theorem test_airPolicyStartHold : answers (exec (.airPolicyStartHold 1 [2, 3, 232]) (given s0 ⟨9, 1, [2, 3, 232]⟩)) (fun t =>
    t.aqu.holdTimer == some 600000 && t.aqu.damper == 0 && t.blp.reply == some ⟨0x89, 1, [1]⟩) = true := by decide

theorem test_holdTimerExpiry : answers (exec .holdTimerExpiry (s0.setAqu { s0.aqu with
    holdActive := true, holdTimer := some 100, damper := 0 })) (fun t =>
      t.aqu.holdEnd == some .limit && t.aqu.damper == 60 && t.notices.recircHoldEnd == some ⟨⟨.limit, 0⟩, 0⟩) = true := by
  decide

set_option maxRecDepth 100000 in
/-- R65, R67: with the pressures known the blocked start of R72 goes ahead as the anti-short-cycle timer expires. -/
theorem test_antiShortCycleExpiry : answers (exec .antiShortCycleExpiry (s0.setPsq { s0.psq with
    wanted := .cool, pSuc := ⟨some 50, .good⟩, pDis := ⟨some 100, .good⟩ })) (fun t =>
      t.psq.state == .start && t.dln.link == .startingAck && t.driveOut == [0xA5, 1, 2, 0, 0, 0x9C, 0x14] && t.dln.ackTimer == some 200) =
    true := by decide

/-- R70: the valve moves first for HEAT. -/
theorem test_settleTimerExpiry : answers (exec .settleTimerExpiry (s0.setPsq { s0.psq with
    state := .shift, settleTimer := some 100, valve := .heatSide, wanted := .heat, antiShortCycle := none
    pSuc := ⟨some 50, .good⟩, pDis := ⟨some 100, .good⟩ })) (fun t =>
      t.psq.state == .start && t.psq.mode == some .heat && t.psq.settleTimer == none) = true := by decide

/-- R66, 00 Table 2: entering SHIFT toward the HEAT-SIDE energizes the reversing-valve coil. -/
theorem test_shift_energizes_coil : answers (exec .antiShortCycleExpiry (s0.setPsq { s0.psq with
    wanted := .heat, pSuc := ⟨some 50, .good⟩, pDis := ⟨some 100, .good⟩ })) (fun t =>
      t.psq.state == .shift && t.psq.coilEnergized && !s0.psq.coilEnergized) = true := by decide

set_option maxRecDepth 100000 in
/-- R75: the frost index stands at 500 after a TIMEOUT. -/
theorem test_defrostTimerExpiry : answers (exec .defrostTimerExpiry (heating.setPsq { heating.psq with
    mode := some .defrost, defrostMark := .auto, defrostTimer := some 100, frost := 800 })) (fun t =>
      (t.psq.frost, t.psq.state, t.psq.defrostMark, t.psq.lastDefrostEnd) == (500, .rampdown, .none, some .timeout) &&
        t.driveOut == stopBytes) = true := by decide

/-- R78, R80: a drive that is silent for 2 s trips the plant. -/
theorem test_silenceTimerExpiry : answers (exec .silenceTimerExpiry heating) (fun t =>
    t.psq.state == .tripped && t.psq.faultRecord.cause == some .driveSilent && t.psq.antiShortCycle == some 180000) =
    true := by decide

/-- R82: the third trip within 30 minutes locks the plant out. -/
theorem test_driveFaultRecord_third : answers (exec (.driveFaultRecord 37) ((heating.setTime 20000).setPsq { heating.psq with
    tripHistory := [3000, 4000] })) (fun t =>
      t.psq.state == .lockout && t.psq.faultRecord.driveCode == 37 && t.notices.lockout.isSome) = true := by decide

theorem test_clearLockout : answers (exec (.clearLockout 1 []) (given (s0.setPsq { s0.psq with
    state := .lockout, tripHistory := [1, 2, 3] }) ⟨0x1B, 1, []⟩)) (fun t =>
      t.psq.state == .stopped && t.psq.tripHistory == []) = true := by decide

set_option maxRecDepth 100000 in
/-- Section 5.6: a FAULT in STARTING-RUN sends STOP and waits 30 s; a late RUNNING in RETRY-WAIT stops the drive. -/
theorem test_driveFaultRecord_in_start : answers (exec (.driveFaultRecord 37) (onDrive .startingRun 1 s0)) (fun t =>
    t.dln.link == .retryWait && t.dln.retryTimer == some 30000 && t.driveOut == stopBytes && t.dln.failure == .fault) =
    true := by decide

set_option maxRecDepth 100000 in
theorem test_driveRunning_late : answers (exec .driveRunning (onDrive .retryWait 1 s0)) (fun t =>
    t.dln.link == .stopping && t.dln.failure == .lateRunning && t.driveOut == stopBytes) = true := by decide

theorem test_driveStartAck : answers (exec .driveStartAck (onDrive .startingAck 1 s0)) (fun t =>
    t.dln.link == .startingRun && t.dln.runningTimer == some 5000 && t.dln.ackTimer == none) = true := by decide

theorem test_ackTimerExpiry_third : answers (exec .ackTimerExpiry (onDrive .startingAck 3 (inPlant .start (some .cool) s0)))
    (fun t => t.dln.link == .stopping && t.psq.faultRecord.cause == some .driveStartFailed) = true := by decide

set_option maxRecDepth 100000 in
theorem test_refreshTimerExpiry : answers (exec .refreshTimerExpiry heating) (fun t =>
    t.driveOut == [0xA5, 2, 2, 0x05, 0xDC, 0xF2, 0xCC] && t.dln.refreshTimer == some 500) = true := by decide

/-- R98, R69: the drive's STOPPED in RAMPDOWN begins the dwell of 60 s. -/
theorem test_driveStopped : answers (exec .driveStopped (onDrive .stopping 1 (inPlant .rampdown none s0))) (fun t =>
    t.psq.state == .equalize && t.psq.dwell == .running 60000 && t.dln.link == .off && t.dln.lastStop == .confirmed) =
    true := by decide

set_option maxRecDepth 100000 in
/-- R88, R183: a record kind of no row, with its check right, is dropped and counted. -/
theorem test_driveRecordDropped : answers (exec (.driveRecordDropped [0xA5, 0x16, 0, 0xB4, 0xDA]) s0) (fun t =>
    t.dln.errorCount == 1) = true := by decide

/-- Table 6-5, 0.550 s and 1.030 s: a step down; the 2000th step makes a verify due. -/
theorem test_seekStep : answers (exec (.seekStep .fad) (seekingFad 129 0 1999 false (.step 20))) (fun t =>
    let r := t.stepper .fad
    (r.position, r.stepsMoved, r.verifyDue) == (some 128, 2000, true) && r.timer == .step 20) = true := by decide

/-- Table 6-5, 3.590 s: at its target with a verify due the automatic verify begins. -/
theorem test_reversalPauseExpiry : answers (exec (.reversalPauseExpiry .fad) (seekingFad 1 0 2127 true (.pause 40))) (fun t =>
    let r := t.stepper .fad
    r.state == .verifying && (r.prior, r.count, r.limit) == (0, 0, 40)) = true := by decide

/-- Table 6-6, 1.830 s: the 183rd step makes the position UNKNOWN. -/
theorem test_verifyStep : answers (exec (.verifyStep .fL1) (referenceL1 .verifying .operationVerify 182 182 222 (.step 10)))
    (fun t => ((t.stepper .fL1).position, (t.stepper .fL1).count) == (none, 183)) = true := by decide

/-- Table 6-6, 1.893 s: the switch closes after the 189th step; 7 steps of slip; the stored target 182 is sought. -/
theorem test_homeSwitchClose : answers (exec (.homeSwitchClose .fL1)
    (referenceL1 .verifying .automaticVerify 182 189 222 (.step 10))) (fun t =>
      let r := t.stepper .fL1
      r.state == .seeking && (r.position, r.slipCount, r.stepsMoved) == (some 0, 1, 0)) = true := by decide

/-- R106, R110: at the limit (travel 200 + 40) with the switch OPEN the stepper is in FAULT and its zone's flap is not
usable. -/
theorem test_homeStep_limit : answers (exec (.homeStep .fL1) (referenceL1 .homing .home 0 240 240 (.step 10))) (fun t =>
    (t.stepper .fL1).state == .fault && !(t.zone .l1).flapUsable &&
      t.notices.actuatorFault == some ⟨⟨.fL1, .homeLimit, 240⟩, 0⟩) = true := by decide

/-- Section 7.7: the raw reading 2900 is 28.3 bar, above the discharge limit of 28.0 bar. R75: T-COIL at its clear value ends
a defrost CLEARED, the frost index at 0. -/
theorem test_channelSample_plant :
    (answers (exec (.channelSample .pDis 2900) heating) fun t =>
      (t.channel .pDis).value == some 283 && t.psq.faultRecord.cause == some .highDischarge) = true ∧
    (answers (exec (.channelSample .tCoil 4079) (heating.setPsq { heating.psq with
      mode := some .defrost, defrostMark := .auto, frost := 800 })) fun t =>
        (t.psq.state, t.psq.frost, t.psq.lastDefrostEnd) == (.rampdown, 0, some .cleared)) = true := ⟨by decide, by decide⟩

/-- Section 7.7: offset -380, raw 4079: 864 is clamped to 850, and the upper deck's heaters are cut for 120 s. -/
theorem test_channelSample_clamps : answers (exec (.channelSample .tSupU 4079) (s0.setChannel .tSupU
    { s0.channel .tSupU with offset := -380 })) (fun t =>
      (t.channel .tSupU).value == some 850 && (t.channel .tSupU).clamped && (t.deck .upper).cutTimer == some 120000) =
    true := by decide

/-- Table 7-6, 2.0 s: the third sample above 250 trips watch 2; capture starts. -/
theorem test_channelSample_watch : answers (exec (.channelSample .pDis 2632) (watching 2 .armed)) (fun t =>
    let w := t.watch .i2
    (t.channel .pDis).value == some 257 && w.state == .tripped && (w.count, w.tripCount) == (0, 1) &&
      t.trq.queue.length == 2 && t.notices.watchTrip.isSome) = true := by decide

/-- R124: after 30 s the channel is LOST; R78: a lost pressure trips a plant in RUN. -/
theorem test_lossTimerExpiry : answers (exec (.lossTimerExpiry .pSuc) (heating.setChannel .pSuc
    { heating.channel .pSuc with quality := .held, value := some 50, lossTimer := some 100 })) (fun t =>
      (t.channel .pSuc).quality == .lost && t.psq.faultRecord.cause == some .pressureLost) = true := by decide

theorem test_watchSet : replies (.watchSet 1 [2, 12, 0, 250, 0, 0, 20, 3, 3, 1]) s0 [0] = true := by decide
theorem test_armWatchArm_of_no_watch : replies (.armWatchArm 1 [8, 0]) s0 [4] = true := by decide

/-- R136: a list past the last place is refused; a whole store is read 19 places at a time. -/
theorem test_stagesWrite_past_the_end : replies (.stagesWrite 1 (127 :: List.replicate 16 0)) s0 [4] = true := by decide
theorem test_stagesRead_last_place :
    replies (.stagesRead 1 [127, 19]) s0 [0, 127, 1, 0, 0, 0, 0, 0, 0, 0, 0, 0, 0] = true := by decide

theorem test_runnerStart_no_list : replies (.runnerStart 1 [0, 0]) s0 [8] = true := by decide
theorem test_runnerHold_idle : replies (.runnerHold 1 []) s0 [9] = true := by decide

set_option maxRecDepth 100000 in
/-- R140: sixty-four completions without a wait are a RUNAWAY; the 64th at place 127 is one at END OF STORE (log 44). -/
theorem test_runnerStart_runaway :
    (answers (exec (.runnerStart 1 [0, 0])
      (given (withEntry 0 (withStage 0 ⟨6, 1, 0, 0, 0, 0, 0, 0⟩ s0)) ⟨0x0D, 1, [0, 0]⟩)) fun t =>
        t.runner.stopCause == .runaway && (t.stage 0).passes == 64) = true ∧
    (answers (exec (.runnerStart 1 [0, 0])
      (given (withEntry 64 ((List.range 64).foldl (fun s k => withStage (64 + k) ⟨7, 0, 1, 0, 0, 0, 0, 0⟩ s) s0))
        ⟨0x0D, 1, [0, 0]⟩)) fun t =>
          t.runner.stopCause == .runaway && t.runner.stopIndex == .endOfStore && t.runner.burstCount == 64) = true := by
  decide

set_option maxRecDepth 100000 in
/-- R161, R160: a MARK in a full queue under DISCARD is dropped and counted with its time. -/
theorem test_traceMark_full : answers (exec (.traceMark 1 [1, 2]) (given ((s0.setTime 4560).setTrq { s0.trq with
    capture := .capturing, queue := List.replicate 256 ⟨0, .mark 0 .body⟩ }) ⟨0x18, 1, [1, 2]⟩)) (fun t =>
      (t.trq.dropCount, t.trq.firstDrop) == (1, some 4560) && t.blp.reply == some ⟨0x98, 1, [0, 1]⟩) = true := by decide

/-- R163: the snapshot period 60 is brought to 64 and told. -/
theorem test_traceControlArm : answers (exec (.traceControlArm 1 [1, 4, 0, 0, 60]) (given s0 ⟨0x16, 1, [1, 4, 0, 0, 60]⟩))
    (fun t => t.trq.snapshotPeriod == 64 && t.trq.capture == .armed) = true := by decide

set_option maxRecDepth 100000 in
/-- R178: the check of the nine digits "123456789" with this polynomial and initial value is 0x29B1 (a standard check value). -/
theorem test_check : checkBytes [0x31, 0x32, 0x33, 0x34, 0x35, 0x36, 0x37, 0x38, 0x39] = [0x29, 0xB1] := by decide

set_option maxRecDepth 100000 in
/-- R178, Table 11-1: a TRACE MARK as bytes of the line: start byte, kind, tag 0xA5 escaped, length, payload 0xA6 0x01 with its
first byte escaped, check. -/
theorem test_frameReceived : answers (exec (.frameReceived
    [0xA5, 0x18, 0xA6, 0x85, 2, 0xA6, 0x86, 1, 0x88, 0xD1]) s0) (fun t =>
      t.blp.queue == [⟨0x18, 0xA5, [0xA6, 1]⟩]) = true := by decide
theorem test_partialFrameDiscarded : answers (exec .partialFrameDiscarded s0) (fun t => t.blp.linkErrors == 1) = true := by
  decide
theorem test_unknownKindRequest : replies (.unknownKindRequest 0x1D 1 [5]) s0 [2] = true := by decide
theorem test_request_of_bad_length : replies (.allowance 1 [5]) s0 [3] = true := by decide

set_option maxRecDepth 100000 in
/-- R172, R177: STARTED with cause POWER_ON is the first notice, with tag 0 and merge count 0. -/
theorem test_noticeSend : answers (exec .noticeSend s0) (fun t =>
    t.bodyOut == [0xA5, 0x40, 0, 2, 0, 0, 0x6E, 0x04] && t.notices.started == none) = true := by decide

/-- R173: HOME of F-U1 with limit 200 + 40; a slot that is taken refuses; an empty mask is no HOME. -/
theorem test_operationHome : answers (exec (.operationHome 1 [1, 0, 1]) (given s0 ⟨0x11, 1, [1, 0, 1]⟩)) (fun t =>
    (t.stepper .fU1).state == .homing && (t.stepper .fU1).limit == 240 && t.ops.slot.isSome) = true := by decide
theorem test_operationHome_empty_mask : replies (.operationHome 1 [1, 0, 0]) s0 [4] = true := by decide
theorem test_operationDefrost_outside_run : replies (.operationDefrost 1 [3, 0, 0]) s0 [9] = true := by decide

/-- R57: a PURGE of 20 periods opens the damper fully. -/
theorem test_operationPurge : answers (exec (.operationPurge 1 [4, 0, 20]) (given s0 ⟨0x11, 1, [4, 0, 20]⟩)) (fun t =>
    (t.aqu.purgeCount, t.aqu.damper) == (20, 400) && t.aqu.purgeActive) = true := by decide

/-- R172: a warm restart keeps setpoints and leaves STARTED with cause WARM_RESTART. -/
theorem test_restart : answers (exec (.restart 1 []) (given workedPass ⟨0x1C, 1, []⟩)) (fun t =>
    (t.zone .u1).setpoint == 220 && (t.zone .u1).mode == .off && t.psq.state == .rampdown && t.psq.restartMark &&
      t.notices.started == some ⟨.warmRestart, 0⟩) = true := by decide

/-! ## For each statement with hypotheses, states and operands that meet them

The name says the statement. Where a statement asks only that the frame can be taken, `given_canTake` meets it for every
operand; the other conjuncts are the hypotheses of its clauses, at the ends of their ranges. -/

theorem witness_IdleStepPassesTime : s0.pending = [] := rfl

theorem witness_ZoneSetWritesNamedZones :
    (∀ tag mask mode hi lo, (given s0 ⟨0x02, tag, [mask, mode, hi, lo]⟩).CanTake ⟨0x02, tag, [mask, mode, hi, lo]⟩) ∧
      (1 ≤ (1 : Byte).toNat ∧ (63 : Byte).toNat < 64) ∧ (64 ≤ (64 : Byte).toNat) ∧
      (3 ≤ (3 : Byte).toNat ∧ (0xFE : Byte) ≠ 0xFF) :=
  ⟨fun _ _ _ _ _ => given_takes _ _ rfl, by decide⟩

theorem witness_VehicleStateAndDoorTimer :
    (∀ tag d o0 o1 o2 o3 o4 o5, (given s0 ⟨0x04, tag, [d, o0, o1, o2, o3, o4, o5]⟩).CanTake
      ⟨0x04, tag, [d, o0, o1, o2, o3, o4, o5]⟩) ∧
      ∀ d : Door, ((s0.setDoor d ⟨true, some 100⟩).door d).timer.isSome = true :=
  ⟨fun _ _ _ _ _ _ _ _ => given_takes _ _ rfl, fun d => by cases d <;> rfl⟩

/-- Zone U2's channel LOST with GOOD deck-mates. -/
def borrowing : State := workedPeriod.setChannel .tU2 { s0.channel .tU2 with quality := .lost }

set_option maxRecDepth 100000 in
/-- R16: U2 borrows 213 from its deck-mates at 195 and 232; with none GOOD it is BLIND; U1 is not LOST. -/
theorem witness_ControlPeriodBorrowsAndComputes : s0.Calm ∧ borrowing.Calm ∧
    (∃ t, exec .controlPeriodExpiry borrowing = .next t ∧
      decide ((t.zone .u2).sensorUse = .borrowed ∧ (t.zone .u2).measured = some 213) = true) ∧
    (∃ t, exec .controlPeriodExpiry s0 = .next t ∧ decide ((t.zone .u2).sensorUse = .blind) = true) ∧
    (borrowing.channel (zoneChannel .u1)).quality ≠ .lost ∧ (borrowing.channel (zoneChannel .u2)).quality = .lost ∧
    mateValues borrowing .u2 = [195, 232] ∧ mateValues s0 .u2 = [] ∧ (s0.channel (zoneChannel .u2)).quality = .lost :=
  ⟨⟨rfl, rfl⟩, ⟨rfl, rfl⟩, next_of_answers (by decide), next_of_answers (by decide),
    by decide, by decide, by decide, by decide, by decide⟩

theorem witness_ConfigWriteReplacesZoneTables :
    (∀ p : List Byte, p.length = 6 → (given s0 ⟨0x07, 1, 2 :: p⟩).CanTake ⟨0x07, 1, 2 :: p⟩ ∧
      (given s0 ⟨0x07, 1, 3 :: p⟩).CanTake ⟨0x07, 1, 3 :: p⟩) ∧
    (∀ p : List Byte, p.length = 24 → (given s0 ⟨0x07, 1, 4 :: p⟩).CanTake ⟨0x07, 1, 4 :: p⟩) ∧
    (∀ p : List Byte, p.length = 10 → (given s0 ⟨0x07, 1, 1 :: p⟩).CanTake ⟨0x07, 1, 1 :: p⟩) := by
  refine ⟨fun p h => ⟨?_, ?_⟩, fun p h => ?_, fun p h => ?_⟩ <;> exact given_canTake _ _ (by simp [h, maxPayload])

theorem witness_AllowanceIsTakenExpiresAndAges :
    (∀ tag hi lo, (given heating ⟨0x05, tag, [hi, lo]⟩).CanTake ⟨0x05, tag, [hi, lo]⟩) ∧
      heating.sha.validityTimer.isSome = true ∧ standing heating ≤ 4000 :=
  ⟨fun _ _ _ => given_takes _ _ rfl, by decide, by decide⟩

theorem witness_SheddingFitsAllowance :
    (given workedShed ⟨0x05, 1, [0x10, 0x68]⟩).CanTake ⟨0x05, 1, [0x10, 0x68]⟩ ∧
    (∀ z, 0 < (workedShed.zone z).granted → z ∈ workedShed.sha.last.order) ∧ workedShed.sha.last.order.Nodup ∧
    ∃ t, exec (.allowance 1 [0x10, 0x68]) (given workedShed ⟨0x05, 1, [0x10, 0x68]⟩) = .next t ∧
      decide (t.sha.effective < standing workedShed) = true :=
  ⟨given_takes _ _ rfl, fun z => by cases z <;> decide, by decide, next_of_answers (by decide)⟩

/-- Two decks that carry a passenger each, no zone calling, blowers on equal stages (their floor is 1, R27). -/
def onFloors (n : Nat) : State :=
  ((s0.setZone .u1 { s0.zone .u1 with occupancy := 1 }).setZone .l1 { s0.zone .l1 with occupancy := 1 }).setSha
    { s0.sha with stages := ⟨n, n⟩ }

/-- R43: with the decks at their floors nothing is cut, and the last share result carries no shed mark; from stage 3 both
decks are lowered to their floors. -/
theorem witness_SheddingFitsAllowance_floors :
    (∀ n, (given (onFloors n) ⟨0x05, 1, [0, 100]⟩).CanTake ⟨0x05, 1, [0, 100]⟩) ∧
    (∀ n, n = 1 ∨ n = 3 → (∀ z, ((onFloors n).zone z).granted = 0) ∧
      ∃ t, exec (.allowance 1 [0, 100]) (given (onFloors n) ⟨0x05, 1, [0, 100]⟩) = .next t ∧
        decide (t.sha.effective < standing (onFloors n) ∧ t.sha.stages = ⟨1, 1⟩ ∧
          t.sha.last.shed = decide (n = 3)) = true) := by
  refine ⟨fun _ => given_takes _ _ rfl, fun n h => ?_⟩
  rcases h with h | h <;> subst h <;> exact ⟨fun z => by cases z <;> rfl, next_of_answers (by decide)⟩

set_option maxRecDepth 100000 in
/-- For the statements about a pass: PassDirectionAndNeed, PassCommandStarvationAndWantedMode, PassFitsAllowance and
PassReachesActuators. The plant is available in one state and not in the other. -/
theorem witness_Passes : workedPass.Calm ∧ workedPeriod.Calm ∧
    (∃ t, exec .controlPeriodExpiry workedPass = .next t ∧ decide (0 < t.sha.last.need ∧ t.sha.last.pe ≠ 0) = true) ∧
    (∃ t, exec .controlPeriodExpiry workedPeriod = .next t ∧ decide (t.sha.last.pe = 0) = true) :=
  ⟨⟨rfl, rfl⟩, ⟨rfl, rfl⟩, next_of_answers (by decide), next_of_answers (by decide)⟩

/-- Table 2-4: its temperatures rise; -50 lies between rows 2 and 3, -200 and 350 at its ends. -/
theorem witness_CopIsInterpolated :
    (∀ i, i < 5 → (((PerfIx.at i).map perfReset.get).getD perfReset.r6).temp <
      (((PerfIx.at (i + 1)).map perfReset.get).getD perfReset.r6).temp) ∧
    (-200 : Int) ≤ perfReset.r1.temp ∧ perfReset.r6.temp ≤ (350 : Int) ∧ perfReset.r2.temp ≤ (-50 : Int) ∧
      (-50 : Int) < perfReset.r3.temp := by decide

theorem witness_ConfigWriteReplacesUnitTables :
    (∀ p : List Byte, p.length = 36 → (given s0 ⟨0x07, 1, 5 :: p⟩).CanTake ⟨0x07, 1, 5 :: p⟩) ∧
    (∀ p : List Byte, p.length = 16 → (given s0 ⟨0x07, 1, 6 :: p⟩).CanTake ⟨0x07, 1, 6 :: p⟩) ∧
    (∀ p : List Byte, p.length = 10 → (given s0 ⟨0x07, 1, 7 :: p⟩).CanTake ⟨0x07, 1, 7 :: p⟩) ∧
    (∀ p : List Byte, p.length = 8 → (given s0 ⟨0x07, 1, 8 :: p⟩).CanTake ⟨0x07, 1, 8 :: p⟩) ∧
    (∀ p : List Byte, p.length = 64 → (given s0 ⟨0x07, 1, 9 :: p⟩).CanTake ⟨0x07, 1, 9 :: p⟩) := by
  refine ⟨fun p h => ?_, fun p h => ?_, fun p h => ?_, fun p h => ?_, fun p h => ?_⟩ <;>
    exact given_canTake _ _ (by simp [h, maxPayload])

/-- A performance table whose temperatures rise (0, 1, .. 5), and one whose do not. -/
theorem witness_ConfigWriteReplacesUnitTables_rises :
    let p : List Byte := (List.range 6).flatMap fun i => [0, BitVec.ofNat 8 i, 0, 200, 0, 200]
    p.length = 36 ∧ ∀ i j : PerfIx, i.pos + 1 = j.pos → field p (6 * i.pos) < field p (6 * j.pos) := by
  refine ⟨by decide, fun i j h => ?_⟩
  cases i <;> cases j <;> first | exact absurd h (by decide) | decide

theorem witness_AirPolicyWritesDecideDamper : s0.aqu.policyMin ≤ 1000 ∧ 3 < (4 : Byte).toNat ∧
    ∀ tag k hi lo, (given s0 ⟨0x09, tag, [k, hi, lo]⟩).CanTake ⟨0x09, tag, [k, hi, lo]⟩ :=
  ⟨by decide, by decide, fun _ _ _ _ => given_takes _ _ rfl⟩

/-- A PURGE in its 20th period of n, the ABORT of it pending or not. -/
def purgingFor (n : Nat) (aborted : Bool) : State :=
  (s0.setAqu { s0.aqu with purgeActive := true, purgeCount := n, periodsRun := 19 }).setOps
    ⟨some ⟨.purge n, .body, aborted, none⟩, ⟨some .purge, some .body, .running, .zero⟩⟩

set_option maxRecDepth 100000 in
/-- R58: the period is counted; the PURGE ends DONE on its count, ABORTED at the boundary, and goes on before both. -/
theorem witness_AirPolicyWritesDecideDamper_period : ∀ n b, (n, b) ∈ [(20, false), (21, true), (21, false)] →
    (purgingFor n b).Calm ∧ (purgingFor n b).aqu.policyMin ≤ 1000 ∧
    ∃ t, exec .controlPeriodExpiry (purgingFor n b) = .next t ∧ decide (t.aqu.periodsRun = 20 ∧ t.ops.status.state =
      (if n = 20 then .ended .done else if b then .ended .aborted else .running)) = true := by
  intro n b h
  simp only [List.mem_cons, Prod.mk.injEq, List.not_mem_nil, or_false] at h
  rcases h with ⟨h, k⟩ | ⟨h, k⟩ | ⟨h, k⟩ <;> subst h <;> subst k <;>
    exact ⟨⟨rfl, rfl⟩, by decide, next_of_answers (by decide)⟩

theorem witness_HoldStartsRenewsAndEnds :
    let held := s0.setAqu { s0.aqu with holdActive := true, holdTimer := some 1000 }
    let purged := s0.setAqu { s0.aqu with purgeActive := true }
    (s0.aqu.purgeActive = false ∧ s0.aqu.holdActive = false) ∧ purged.aqu.purgeActive = true ∧
    (held.aqu.purgeActive = false ∧ held.aqu.holdActive = true ∧ held.aqu.holdTimer.isSome = true) ∧
    ∀ s, s = s0 ∨ s = held ∨ s = purged → s.aqu.policyMin ≤ 1000 ∧
      ∀ tag k hi lo, (given s ⟨0x09, tag, [k, hi, lo]⟩).CanTake ⟨0x09, tag, [k, hi, lo]⟩ :=
  ⟨by decide, by decide, by decide, fun s h => ⟨by rcases h with h | h | h <;> subst h <;> decide,
    fun _ _ _ _ => given_takes _ _ rfl⟩⟩

theorem witness_DecisionEventsDecideStart :
    let dwelling := s0.setPsq { s0.psq with state := .equalize, dwell := .running 60000 }
    let tripped := s0.setPsq { s0.psq with state := .tripped, tripTimer := some 300000 }
    let shifting := s0.setPsq { s0.psq with state := .shift, settleTimer := some 2000 }
    (s0.Calm ∧ s0.psq.antiShortCycle.isSome = true) ∧ (dwelling.Calm ∧ ∃ ms, dwelling.psq.dwell = .running ms) ∧
    (tripped.Calm ∧ tripped.psq.state = .tripped ∧ tripped.psq.tripTimer.isSome = true) ∧
    (∀ tag, (given (inPlant .lockout none s0) ⟨0x1B, tag, []⟩).CanTake ⟨0x1B, tag, []⟩) ∧
    (shifting.Calm ∧ shifting.psq.state = .shift ∧ shifting.psq.settleTimer.isSome = true ∧
      shifting.psq.defrostMark = .none) :=
  ⟨⟨⟨rfl, rfl⟩, by decide⟩, ⟨⟨rfl, rfl⟩, 60000, rfl⟩, ⟨⟨rfl, rfl⟩, by decide, by decide⟩,
    fun _ => given_takes _ _ rfl, ⟨rfl, rfl⟩, by decide, by decide, by decide⟩

theorem witness_DefrostRunEnds :
    let s := (heating.setPsq { heating.psq with
      mode := some .defrost, defrostMark := .operation, defrostTimer := some 600000 }).setOps
        ⟨some ⟨.defrost, .body, false, none⟩, ⟨some .defrost, some .body, .running, .zero⟩⟩
    s.Calm ∧ s.psq.state = .run ∧ s.psq.mode = some .defrost ∧ s.psq.defrostMark ≠ .none ∧
    s.psq.defrostTimer.isSome = true ∧ s.ops.slot = some ⟨.defrost, .body, false, none⟩ ∧
    ∀ tag b, (given s ⟨0x12, tag, [b]⟩).CanTake ⟨0x12, tag, [b]⟩ :=
  ⟨⟨rfl, rfl⟩, rfl, rfl, by decide, rfl, rfl, fun _ _ => given_takes _ _ rfl⟩

theorem witness_DriveReportsTripThePlant : heating.Calm ∧ heating.psq.state = .run ∧ heating.dln.link = .running ∧
    ((1 : Nat) ≤ 1 ∧ (255 : Nat) ≤ 255) := ⟨⟨rfl, rfl⟩, rfl, rfl, by decide⟩

/-- RUN in HEAT with the sequencer's record changed. -/
def ran (f : Psq → Psq) : State := heating.setPsq (f heating.psq)

/-- The zones of Table 2-5 calling for cooling, in RUN COOL or DEHUM. -/
def cooling (m : RunMode) (h : HumidityState) : State :=
  let s := workedPass.setZones (.ofFn fun k =>
    { workedPass.zone k with integrator := -(workedPass.zone k).integrator, measured := some 230 })
  ((s.setPsq { s.psq with mode := some m, wanted := .cool, valve := .coolSide }).setSha
    { s.sha with direction := .cool, outdoor := some 300 }).setAqu { s.aqu with humidity := h, rh := ⟨some 700, .good⟩ }

set_option maxRecDepth 100000 in
/-- R79, R71, R73 with R74, R68: each branch of the period in RUN is taken in some state; another command goes out (R94). -/
theorem witness_DriveReportsTripThePlant_period :
    (answers (exec .controlPeriodExpiry (ran fun p => { p with lowSuctionCount := 4, pSuc := ⟨some 0, .good⟩ })) fun t =>
      t.psq.state == .tripped && t.psq.faultRecord.cause == some .lowSuction) = true ∧
    (answers (exec .controlPeriodExpiry (ran fun p => { p with verifyWindow := .opened, verifyCount := 1 })) fun t =>
      t.psq.state == .tripped && t.psq.faultRecord.cause == some .modeNotConfirmed) = true ∧
    (answers (exec .controlPeriodExpiry (ran fun p => { p with
      frost := 996, heatRunCount := 299, coil := ⟨some (-10), .good⟩, outdoor := some 0 })) fun t =>
        t.psq.state == .rampdown && t.psq.defrostMark == .auto) = true ∧
    (answers (exec .controlPeriodExpiry (ran fun p => { p with mode := some .cool })) fun t =>
      t.psq.state == .rampdown) = true ∧
    (answers (exec .controlPeriodExpiry workedPass) fun t => t.dln.powerSent == t.sha.last.pe &&
      t.sha.last.pe != workedPass.dln.powerSent && t.dln.refreshTimer == some 500) = true ∧
    workedPass.Calm ∧ (ran id).Calm :=
  ⟨by decide, by decide, by decide, by decide, by decide, ⟨rfl, rfl⟩, rfl, rfl⟩

set_option maxRecDepth 100000 in
/-- R68: DEHUM is entered from COOL, and COOL from DEHUM, without a stop; COOL that is wanted stays. -/
theorem witness_DriveReportsTripThePlant_dehum :
    (answers (exec .controlPeriodExpiry (cooling .cool .dryNeeded)) fun t => t.psq.mode == some .dehum) = true ∧
    (answers (exec .controlPeriodExpiry (cooling .dehum .normal)) fun t => t.psq.mode == some .cool) = true ∧
    (answers (exec .controlPeriodExpiry (cooling .cool .normal)) fun t => t.psq.mode == some .cool) = true :=
  ⟨by decide, by decide, by decide⟩

theorem witness_DriveAckRetryRefreshAndStatus :
    (onDrive .startingAck 1 s0).dln.link = .startingAck ∧ (s0.mail = .empty ∧ s0.dln.link ≠ .startingAck) ∧
    ((onDrive .retryWait 1 s0).mail = .empty ∧ (onDrive .retryWait 1 s0).dln.link = .retryWait) ∧
    heating.dln.link = .running ∧
    ((65535 : Nat) ≤ 65535 ∧ (-128 : Int) ≤ -128 ∧ (127 : Int) ≤ 127) := by decide

/-- START in each mode with each wanted mode: wanted still, COOL and DEHUM exchanged, IDLE, DEFROST. -/
theorem witness_RunningRecordByLinkState :
    (∀ m w, let s := onDrive .startingRun 1 (s0.setPsq { s0.psq with state := .start, mode := some m, wanted := w })
      s.Calm ∧ s.dln.link = .startingRun ∧ s.psq.state = .start ∧ s.psq.mode = some m ∧ s.psq.wanted = w) ∧
    WantedMode.mode .heat = some .heat ∧ WantedMode.mode .dehum ≠ some .cool ∧ WantedMode.mode .cool ≠ some .dehum ∧
    WantedMode.mode .idle ≠ some .heat ∧
    (∀ l n, (onDrive l n s0).Calm ∧ (onDrive l n s0).dln.link = l) :=
  ⟨fun _ _ => ⟨⟨rfl, rfl⟩, rfl, rfl, rfl, rfl⟩, by decide, by decide, by decide, by decide, fun _ _ => ⟨⟨rfl, rfl⟩, rfl⟩⟩

theorem witness_StartAttemptFails : ∀ l n, (onDrive l n s0).Calm ∧ (onDrive l n s0).dln.link = l ∧
    (onDrive l n s0).dln.attempts = n := fun _ _ => ⟨⟨rfl, rfl⟩, rfl, rfl⟩

theorem witness_StopEndsConfirmedOrPresumed :
    let s (mark : Bool) := onDrive .stopping 1 (s0.setPsq { s0.psq with state := .rampdown, restartMark := mark })
    (∀ m, (s m).Calm ∧ (s m).psq.state ≠ .run ∧ (s m).dln.link = .stopping ∧ (s m).psq.restartMark = m) ∧
    (onDrive .stopping 1 s0).psq.state ≠ .rampdown ∧ s0.dln.link = .off ∧ s0.psq.state ≠ .run :=
  ⟨fun _ => ⟨⟨rfl, rfl⟩, by change PlantState.rampdown ≠ .run; decide, rfl, rfl⟩, by decide, by decide, by decide⟩

set_option maxRecDepth 100000 in
/-- A kind of no row, and a payload of 8 bytes; a known record with another check than its own. -/
theorem witness_BadDriveRecordsAreDropped : s0.mail = .empty ∧ s0.dln.errorCount ≤ 65535 ∧
    (List.replicate 8 (0 : Byte)).length ≤ 8 ∧
    (¬((0x10 : Byte) = 0x11 ∨ (0x10 : Byte) = 0x12 ∨ (0x10 : Byte) = 0x13 ∨ (0x10 : Byte) = 0x14 ∨ (0x10 : Byte) = 0x15)) ∧
    ([0, 0] : List Byte) ≠ checkBytes [0x11, 0] := by decide

theorem witness_SeekingStepsTowardTarget :
    (∀ p target moved due tm, (seekingFad p target moved due tm).mail = .empty ∧
      ((seekingFad p target moved due tm).stepper .fad).state = .seeking ∧
      ((seekingFad p target moved due tm).stepper .fad).position = some p) ∧
    ¬((seekOnce ((seekingFad 129 0 1999 false (.step 20)).stepper .fad) 129).state = .idle) ∧
    (let u := seekOnce ((seekingFad 1 0 2127 true (.pause 40)).stepper .fad) 1
     u.state = .idle ∧ u.verifyDue = true ∧ ((seekingFad 1 0 2127 true (.pause 40)).stepper .fad).switch = .opened) ∧
    ((seekingFad 5 5 0 false (.pause 40)).stepper .fad).timer = .pause 40 ∧
    (∀ due, ((seekingFad 5 5 0 due (.pause 40)).stepper .fad).verifyDue = due) ∧
    (let r := (seekingFad 4 5 1999 false (.step 20)).stepper .fad
     (seekOnce { r with switch := .closed } 4).state = .idle ∧ (seekOnce { r with switch := .closed } 4).verifyDue = true) :=
  ⟨fun _ _ _ _ _ => ⟨rfl, rfl, rfl⟩, by decide, by decide, by decide, by decide, by decide⟩

theorem witness_HomeStepsUntilSwitchOrLimit :
    (∀ count, (referenceL1 .homing .home 0 count 240 (.pause 20)).Calm ∧
      ((referenceL1 .homing .home 0 count 240 (.pause 20)).stepper .fL1).state = .homing ∧
      ((referenceL1 .homing .home 0 count 240 (.pause 20)).stepper .fL1).refKind = .home ∧
      ((referenceL1 .homing .home 0 count 240 (.pause 20)).stepper .fL1).timer ≠ .stopped ∧
      ((referenceL1 .homing .home 0 count 240 (.pause 20)).stepper .fL1).switch = .opened) ∧
    (239 : Nat) < 240 ∧ (240 : Nat) ≤ 240 :=
  ⟨fun _ => ⟨⟨rfl, rfl⟩, rfl, rfl, by change StepTimer.pause 20 ≠ .stopped; decide, rfl⟩, by decide,
    by decide⟩

/-- F-L1 in a HOME or VERIFY of F-L1 alone, or of F-L1 and F-L2, an ABORT of it pending or not. -/
def inOperation (st : StepperState) (k : RefKind) (count limit : Nat) (w : OpWork) (aborted : Bool) : State :=
  ((referenceL1 st k 182 count limit (.step 10)).setStepper .fL2 { s0.stepper .fL2 with
    state := .idle, position := some 20, target := 20 }).setOps
      ⟨some ⟨w, .body, aborted, some .fL1⟩, ⟨some w.kind, some .body, .running, .masks 0 0⟩⟩

theorem witness_HomeStepsUntilSwitchOrLimit_slot : ∀ w aborted,
    let s := inOperation .homing .home 240 240 w aborted
    s.Calm ∧ (s.stepper .fL1).state = .homing ∧ (s.stepper .fL1).refKind = .home ∧ (s.stepper .fL1).switch = .opened ∧
    s.ops.slot = some ⟨w, .body, aborted, some .fL1⟩ ∧ (s.stepper .fL2).switch = .opened ∧
    (∀ m ∈ Stepper.all, Stepper.fL1.pos < m.pos → (8 : BitVec 8).toNat.testBit m.pos = false) ∧
    (0x18 : BitVec 8).toNat.testBit Stepper.fL2.pos = true ∧
    ∀ k : Stepper, Stepper.fL1.pos < k.pos → k.pos < Stepper.fL2.pos → (0x18 : BitVec 8).toNat.testBit k.pos = false := by
  refine fun w aborted => ⟨⟨rfl, rfl⟩, rfl, rfl, rfl, rfl, rfl, by decide, by decide, fun k h1 h2 => ?_⟩
  exact absurd h2 (by cases k <;> first | exact absurd h1 (by decide) | decide)

theorem witness_AutomaticVerifyJudgesSlip :
    (∀ count, (referenceL1 .verifying .automaticVerify 182 count 222 (.step 10)).Calm ∧
      ((referenceL1 .verifying .automaticVerify 182 count 222 (.step 10)).stepper .fL1).state = .verifying ∧
      ((referenceL1 .verifying .automaticVerify 182 count 222 (.step 10)).stepper .fL1).refKind = .automaticVerify ∧
      ((referenceL1 .verifying .automaticVerify 182 count 222 (.step 10)).stepper .fL1).timer ≠ .stopped ∧
      ((referenceL1 .verifying .automaticVerify 182 count 222 (.step 10)).stepper .fL1).slipCount ≤ 255) ∧
    (221 : Nat) < 222 ∧ (222 : Nat) ≤ 222 :=
  ⟨fun _ => ⟨⟨rfl, rfl⟩, rfl, rfl, by change StepTimer.step 10 ≠ .stopped; decide,
    by change 0 ≤ 255; decide⟩, by decide, by decide⟩

theorem witness_AutomaticVerifyJudgesSlip_slot : ∀ count w aborted,
    let s := inOperation .verifying .operationVerify count 222 w aborted
    s.Calm ∧ (s.stepper .fL1).state = .verifying ∧ (s.stepper .fL1).refKind = .operationVerify ∧
    (s.stepper .fL1).timer ≠ .stopped ∧ (s.stepper .fL1).slipCount ≤ 255 ∧
    s.ops.slot = some ⟨w, .body, aborted, some .fL1⟩ ∧ (s.stepper .fL2).state = .idle ∧
    (s.stepper .fL2).position = some 20 :=
  fun _ _ _ => ⟨⟨rfl, rfl⟩, rfl, rfl, by change StepTimer.step 10 ≠ .stopped; decide, by change 0 ≤ 255; decide, rfl, rfl,
    rfl⟩

/-- R174: as the switch of F-L1 closes F-L2 is next, or the HOME has ended; a slip of a VERIFY stands in the first mask. -/
theorem test_homeSwitchClose_operation :
    (answers (exec (.homeSwitchClose .fL1) (inOperation .homing .home 9 240 (.home 0x18) false)) fun t =>
      (t.stepper .fL2).state == .homing && t.ops.slot.isSome) = true ∧
    (answers (exec (.homeSwitchClose .fL1) (inOperation .homing .home 9 240 (.home 8) false)) fun t =>
      t.ops.slot.isNone && t.ops.status.state == .ended .done && t.notices.operationEnd.isSome) = true ∧
    (answers (exec (.homeSwitchClose .fL1) (inOperation .verifying .operationVerify 189 222 (.verify 0x18) false)) fun t =>
      (t.stepper .fL2).state == .verifying && (t.stepper .fL2).prior == 20 && t.ops.status.detail == .masks 8 0) = true :=
  ⟨by decide, by decide, by decide⟩

theorem witness_SwitchesAndDeckTimersRecorded : s0.mail = .empty ∧
    ((s0.stepper .fU1).state ≠ .homing ∧ (s0.stepper .fU1).state ≠ .verifying) ∧
    ((s0.setDeck .upper { s0.deck .upper with spinUp := some 3000 }).deck .upper).spinUp.isSome = true := by decide

/-- The pass of Table 2-5 with the upper deck stopped, the lower deck's heaters on and its supply LOST, F-U1 IDLE and
F-U2 SEEKING downward at 100. -/
def handing : State :=
  let s := workedPass.setDeck .upper { workedPass.deck .upper with stage := 0, running := false }
  let s := s.setDeck .lower { s.deck .lower with supply := .lost }
  let s := s.setAct { s.act with stepsOn := s.act.stepsOn.set .l1 1 }
  let at' (n : Stepper) (st : StepperState) (m : Motion) (tm : StepTimer) (s : State) : State := s.setStepper n
    { s.stepper n with state := st, position := some 100, target := if m = .down then 20 else 100, motion := m, timer := tm }
  at' .fU1 .idle .none .stopped (at' .fU2 .seeking .down (.step 10) s)

set_option maxRecDepth 100000 in
/-- R115: the stage rises from 0, spin-up at 3 s; R114: the after-run starts; R102, R104: IDLE becomes SEEKING, the other
side takes a reversal pause. -/
theorem witness_PassReachesActuators : handing.Calm ∧ ∃ t, exec .controlPeriodExpiry handing = .next t ∧
    decide ((t.deck .upper).spinUp = some 3000 ∧ (t.deck .upper).running = false ∧ (t.deck .lower).afterRun = some 60000 ∧
      (t.stepper .fU1).state = .seeking ∧ 100 < (t.stepper .fU2).target ∧ (t.stepper .fU2).motion = .none ∧
      (t.stepper .fU2).timer = .pause (2 * (handing.stepper .fU2).stepTime)) = true :=
  ⟨⟨rfl, rfl⟩, next_of_answers (by decide)⟩

/-- The sequencer's part: a plant in RUN and in RUN DEFROST, a stopped one whose pressure is LOST. -/
theorem witness_GoodSampleIsConvertedAndHandedOut :
    let defrosting := heating.setPsq { heating.psq with mode := some .defrost, defrostMark := .auto }
    s0.Calm ∧ (16 : Nat) ≤ 16 ∧ (4079 : Nat) ≤ 4079 ∧ (heating.Calm ∧ heating.psq.state = .run) ∧
    (defrosting.Calm ∧ defrosting.psq.state = .run ∧ defrosting.psq.mode = some .defrost) ∧
    (s0.psq.state ≠ .run ∧ s0.psq.pSuc.quality = .lost) :=
  ⟨⟨rfl, rfl⟩, by decide, by decide, ⟨⟨rfl, rfl⟩, rfl⟩, ⟨⟨rfl, rfl⟩, rfl, rfl⟩, by decide, by decide⟩

theorem witness_FaultSamplesHoldThenLoseTheChannel :
    let held (c : Channel) := s0.setChannel c { s0.channel c with quality := .held, value := some 0, lossTimer := some 30000 }
    (s0.Calm ∧ (s0.channel .tOut).quality ≠ .good ∧ (15 : Nat) ≤ 15 ∧ (4080 ≤ (4095 : Nat) ∧ (4095 : Nat) ≤ 4095)) ∧
    (workedPeriod.Calm ∧ (workedPeriod.channel .tOut).quality = .good) ∧
    ∀ c, (held c).Calm ∧ ((held c).channel c).quality = .held ∧ ((held c).channel c).lossTimer.isSome = true :=
  ⟨⟨⟨rfl, rfl⟩, by decide, by decide, by decide⟩, ⟨⟨rfl, rfl⟩, by decide⟩, fun c => by cases c <;> exact ⟨⟨rfl, rfl⟩, rfl, rfl⟩⟩

theorem witness_WatchesTakeGoodSamples : (watching 2 .armed).Calm ∧
    ∃ t, exec (.channelSample .pDis 2632) (watching 2 .armed) = .next t ∧ decide ((t.channel .pDis).value = some 257) = true :=
  ⟨⟨rfl, rfl⟩, next_of_answers (by decide)⟩

/-- Watch 2 on T-RET, the other watches elsewhere, with a number of records in the queue under COMPLETE. -/
def watchingRet (capture : Capture) (records : Nat) : State :=
  ((s0.setWch (.ofFn fun _ => { s0.watch .i0 with channel := .rh })).setWatch .i2 { s0.watch .i2 with
    channel := .tRet, threshold := 200, persistence := 1, notify := true, traceStart := true, traceStop := true
    state := .armed }).setTrq { s0.trq with
      capture := capture, policy := .complete, queue := List.replicate records ⟨0, .mark 0 .body⟩ }

set_option maxRecDepth 100000 in
/-- R164: the trip in OFF starts and stops capture again; in FULL_STOPPED it does neither; with 255 records under COMPLETE
the SNAPSHOT fills the queue, and FULL is raised after WATCH_START. -/
theorem witness_WatchesTakeGoodSamples_triggers :
    (∀ c n, (watchingRet c n).Calm ∧ ((watchingRet c n).watch .i2).channel = .tRet ∧
      ((watchingRet c n).watch .i2).state = .armed ∧
      ∀ j, j ≠ .i2 → ((watchingRet c n).watch j).channel ≠ .tRet) ∧
    (answers (exec (.channelSample .tRet 4079) (watchingRet .off 0)) fun t =>
      (t.watch .i2).state == .tripped && (t.channel .tRet).value.isSome && t.trq.capture == .off &&
        t.trq.queue.length == 2) = true ∧
    (answers (exec (.channelSample .tRet 4079) (watchingRet .fullStopped 0)) fun t =>
      (t.watch .i2).state == .tripped && t.trq.capture == .fullStopped && t.trq.queue == []) = true ∧
    (answers (exec (.channelSample .tRet 4079) (watchingRet .off 255)) fun t =>
      (t.watch .i2).state == .tripped && t.trq.capture == .fullStopped && t.trq.queue.length == 256 &&
        t.notices.traceState == some ⟨⟨.fullStopped, .full, none, 256, 0⟩, 1⟩) = true := by
  refine ⟨fun c n => ⟨⟨rfl, rfl⟩, rfl, rfl, fun j h => ?_⟩, by decide, by decide, by decide⟩
  cases j <;> first | exact absurd rfl h | (change Channel.rh ≠ .tRet; decide)

theorem witness_WatchesAreSetArmedAndDisarmed :
    (∀ tag w c th tl d hh hl n acts rearm,
      (given s0 ⟨0x13, tag, [w, c, th, tl, d, hh, hl, n, acts, rearm]⟩).CanTake
        ⟨0x13, tag, [w, c, th, tl, d, hh, hl, n, acts, rearm]⟩) ∧
    (∀ tag w a, (given s0 ⟨0x15, tag, [w, a]⟩).CanTake ⟨0x15, tag, [w, a]⟩) ∧
    (Idx8.at (7 : Byte).toNat).isSome = true ∧ (Channel.at (15 : Byte).toNat).isSome = true ∧ (1 : Byte).toNat ≤ 1 ∧
      (7 : Byte).toNat ≤ 7 ∧ 8 ≤ (8 : Byte).toNat ∧ 16 ≤ (16 : Byte).toNat ∧ 2 ≤ (2 : Byte).toNat :=
  ⟨fun _ _ _ _ _ _ _ _ _ _ _ => given_takes _ _ rfl, fun _ _ _ => given_takes _ _ rfl, by decide⟩

theorem flatMap_bytes_length (l : List StageBytes) : (l.flatMap StageBytes.toList).length = 8 * l.length := by
  induction l with
  | nil => rfl
  | cons a t ih => simp [List.flatMap_cons, ih, StageBytes.toList]; omega

theorem witness_StagesAndEntriesAreWritten :
    storeWf s0.str.store = true ∧
    (∀ tag first (l : List StageBytes), l.length ≤ 24 →
      (given s0 ⟨0x0A, tag, first :: l.flatMap StageBytes.toList⟩).CanTake
        ⟨0x0A, tag, first :: l.flatMap StageBytes.toList⟩) ∧
    (∀ tag l e, (given s0 ⟨0x0C, tag, [l, e]⟩).CanTake ⟨0x0C, tag, [l, e]⟩) ∧
    (s0.runner.state ≠ .running ∧ s0.runner.state ≠ .waiting) ∧
    (s0.setRunner { s0.runner with state := .waiting }).runner.state = .waiting ∧
    128 < (105 : Byte).toNat + 24 ∧ ¬128 < (104 : Byte).toNat + 24 ∧ (127 : Byte).toNat < 128 ∧ 8 ≤ (8 : Byte).toNat := by
  refine ⟨by decide, fun _ _ l h => ?_, fun _ _ _ => given_takes _ _ rfl, by decide⟩
  exact given_canTake _ _ (by simp only [List.length_cons, flatMap_bytes_length, maxPayload]; omega)

def endList : State := withEntry 127 (withStage 127 ⟨13, 0, 0, 0, 0, 0, 0, 0⟩ s0)
def emptyList : State := withEntry 0 s0
/-- WAIT on DOOR OPEN for 60 s. -/
def waitList : State := withEntry 0 (withStage 0 ⟨5, 9, 0, 0, 60, 0xFF, 0, 0⟩ s0)

theorem witness_RunnerStartExecutesEntry :
    (∀ s, ∀ tag l f, (given s ⟨0x0D, tag, [l, f]⟩).CanTake ⟨0x0D, tag, [l, f]⟩) ∧
    (∀ s, s = endList ∨ s = emptyList ∨ s = waitList → s.mail = .empty ∧ storeWf s.str.store = true ∧ s.runner.state = .idle) ∧
    (endList.str.entries.get .i0 = some 127 ∧ (endList.stage 127).bytes.b0 = 13) ∧
    (emptyList.str.entries.get .i0 = some 0 ∧ (emptyList.stage 0).bytes.b0 = 0) ∧
    (waitList.str.entries.get .i0 = some 0 ∧ decodeStage (waitList.stage 0).bytes = some (.wait .doorOpen 60 none) ∧
      (testCond .doorOpen waitList).2 = false) ∧
    s0.str.entries.get .i0 = none ∧ 8 ≤ (8 : Byte).toNat ∧ Idx8.at (0 : Byte).toNat = some .i0 :=
  ⟨fun _ _ _ _ => given_takes _ _ rfl,
    fun s h => by rcases h with h | h | h <;> subst h <;> decide, by decide, by decide, by decide, by decide, by decide, by decide⟩

/-- The entry of list 0 at place 126, place 127 EMPTY. -/
def listOf (b : StageBytes) : State := withEntry 126 (withStage 126 b s0)

/-- One stage of each kind that completes or waits, in Table 8-4's order, fields at their ends. -/
def eachKind : List StageBytes :=
  [⟨1, 63, 0x7F, 0xFF, 0, 0, 0, 0⟩, ⟨2, 1, 2, 0, 0, 0, 0, 0⟩, ⟨3, 0, 3, 232, 0, 0, 0, 0⟩, ⟨3, 2, 2, 88, 0, 0, 0, 0⟩,
    ⟨3, 3, 0, 0, 0, 0, 0, 0⟩, ⟨4, 0, 0, 0, 0, 0, 0, 0⟩, ⟨4, 1, 0, 0, 0, 0, 0, 0⟩, ⟨6, 8, 7, 127, 0, 0, 0, 0⟩,
    ⟨6, 1, 0, 127, 0, 0, 0, 0⟩, ⟨7, 3, 255, 0, 0, 0, 0, 0⟩, ⟨8, 0, 127, 0, 0, 0, 0, 0⟩, ⟨9, 1, 0, 0, 0, 0, 0, 0⟩,
    ⟨9, 3, 0, 0, 0, 0, 0, 0⟩, ⟨9, 4, 0, 0, 0, 0, 0, 0⟩, ⟨9, 4, 1, 0, 150, 0, 0, 0⟩, ⟨10, 7, 1, 0, 0, 0, 0, 0⟩,
    ⟨11, 0xFF, 0xFF, 0, 0, 0, 0, 0⟩, ⟨12, 0, 1, 0, 0, 0, 0, 0⟩]

/-- A malformed stage of each kind that can be malformed (Table 8-4). -/
def badKinds : List StageBytes :=
  [⟨1, 64, 0, 0, 0, 0, 0, 0⟩, ⟨2, 1, 3, 0, 0, 0, 0, 0⟩, ⟨3, 1, 0, 0, 0, 0, 0, 0⟩, ⟨4, 2, 0, 0, 0, 0, 0, 0⟩,
    ⟨5, 1, 0, 0, 0, 128, 0, 0⟩, ⟨6, 14, 0, 0, 0, 0, 0, 0⟩, ⟨7, 4, 0, 0, 0, 0, 0, 0⟩, ⟨8, 0, 128, 0, 0, 0, 0, 0⟩,
    ⟨9, 5, 0, 0, 0, 0, 0, 0⟩, ⟨10, 8, 0, 0, 0, 0, 0, 0⟩]

theorem witness_RunnerStartExecutesEntry_kinds : ∀ b, b ∈ eachKind ++ badKinds →
    (listOf b).mail = .empty ∧ storeWf (listOf b).str.store = true ∧ (listOf b).runner.state = .idle ∧
    (listOf b).str.entries.get .i0 = some 126 ∧ ((listOf b).stage 126).bytes = b ∧
    ((listOf b).stage 127).bytes.b0 = 0 := by decide

theorem witness_RunnerStartExecutesEntry_malformed : ∀ b, b ∈ badKinds → malformed s0 b := by
  intro b h
  simp only [badKinds, List.mem_cons, List.not_mem_nil, or_false] at h
  rcases h with h | h | h | h | h | h | h | h | h | h <;> subst h <;> simp [malformed, condHolds]

set_option maxRecDepth 100000 in
/-- R139, R142: each completes as the one stage of its burst, or waits; a malformed one does not complete; END counts. -/
theorem test_runnerStart_kinds :
    (∀ b, b ∈ eachKind → answers (exec (.runnerStart 1 [0, 0]) (given (listOf b) ⟨0x0D, 1, [0, 0]⟩)) (fun t =>
      t.runner.state == .waiting ||
        (t.runner.burstCount == 1 && t.runner.stopIndex == .at 127 && (t.stage 126).passes == 1)) = true) ∧
    (∀ b, b ∈ badKinds → answers (exec (.runnerStart 1 [0, 0]) (given (listOf b) ⟨0x0D, 1, [0, 0]⟩)) (fun t =>
      t.runner.stopCause == .badStage && t.runner.burstCount == 0) = true) ∧
    answers (exec (.runnerStart 1 [0, 0]) (given endList ⟨0x0D, 1, [0, 0]⟩)) (fun t =>
      t.runner.stopCause == .done && t.runner.burstCount == 1 && (t.stage 127).outcome == .done) = true := by decide

/-- An OPERATE that waits, or does not, on F-U1 IDLE at 50, on all steppers UNHOMED, and in RUN HEAT. -/
def operateList (b1 b2 : Byte) (s : State) : State := withEntry 126 (withStage 126 ⟨9, b1, b2, 0, 1, 0, 0, 0⟩ s)

set_option maxRecDepth 100000 in
/-- R148, R173: HOME and VERIFY of F-U1 and DEFROST are accepted, and completed at once or waited for; R147: a WAIT on
ALWAYS completes at once. -/
theorem witness_RunnerStartExecutesEntry_operate :
    let runs (s : State) (p : State → Bool) := answers (exec (.runnerStart 1 [0, 0]) (given s ⟨0x0D, 1, [0, 0]⟩)) p
    let l (b1 b2 : Byte) := operateList b1 b2 (s0.setStepper .fU1
      { s0.stepper .fU1 with state := .idle, position := some 50, target := 50 })
    (∀ b1 b2, (l b1 b2).mail = .empty ∧ (l b1 b2).ops.slot = none ∧ ((l b1 b2).stepper .fU1).switch = .opened ∧
      ((l b1 b2).stepper .fU1).state = .idle ∧ ((l b1 b2).stepper .fU1).position = some 50) ∧
    (runs (l 1 0) fun t => (t.stepper .fU1).state == .homing && (t.stage 126).outcome == .done) = true ∧
    (runs (l 1 1) fun t => (t.stepper .fU1).state == .homing && t.runner.waitingOn == .operationEnd) = true ∧
    (runs (l 2 0) fun t => (t.stepper .fU1).state == .verifying && (t.stage 126).outcome == .done) = true ∧
    (runs (l 2 1) fun t => (t.stepper .fU1).state == .verifying && t.runner.waitingOn == .operationEnd) = true ∧
    (runs (operateList 3 0 heating) fun t => t.psq.state == .rampdown && (t.stage 126).outcome == .done) = true ∧
    (runs (operateList 3 1 heating) fun t => t.psq.state == .rampdown && t.runner.waitingOn == .operationEnd) = true ∧
    (runs (listOf ⟨5, 1, 0, 0, 0, 0xFF, 0, 0⟩) fun t => (t.stage 126).outcome == .done) = true :=
  ⟨fun _ _ => ⟨rfl, rfl, rfl, rfl, rfl⟩, by decide, by decide, by decide, by decide, by decide, by decide, by decide⟩

/-- BRANCH on ALWAYS to its own place. -/
def loopList : State := withEntry 0 (withStage 0 ⟨6, 1, 0, 0, 0, 0, 0, 0⟩ s0)

/-- LOAD COUNT and a BRANCH on ALWAYS back to it; NOTIFY from place 64 to the end of the store. -/
def backList : State := withEntry 0 (withStage 1 ⟨6, 1, 0, 0, 0, 0, 0, 0⟩ (withStage 0 ⟨7, 0, 5, 0, 0, 0, 0, 0⟩ s0))
def longList : State := withEntry 64 (s0.setStr { s0.str with
  store := (List.range 64).map fun k => (64 + k, ⟨⟨12, 0, 0, 0, 0, 0, 0, 0⟩, .none, 0⟩) })

/-- Whether a place holds a stage that goes on, and where to. -/
def goes (s : State) (i j : Nat) : Bool :=
  let b := (s.stage i).bytes
  b.b0 == 6 && b.b1 == 1 && decide (b.b3.toNat < 128) && j == b.b3.toNat ||
    (b.b0 == 12 || b.b0 == 7 && decide (b.b1.toNat < 4)) && j == i + 1

theorem goesOn_of_goes {s : State} {i j : Nat} (h : goes s i j = true) : goesOn s i j := by
  simp only [goes, Bool.or_eq_true, Bool.and_eq_true, beq_iff_eq, decide_eq_true_eq] at h
  rcases h with ⟨⟨⟨h0, h1⟩, h3⟩, hj⟩ | ⟨h0 | ⟨h0, h1⟩, hj⟩
  · exact .inl ⟨h0, h1, h3, hj⟩
  · exact .inr ⟨by simp [h0], by simp [malformed, h0], hj⟩
  · exact .inr ⟨by simp [h0], by simp [malformed, h0]; omega, hj⟩

set_option maxRecDepth 100000 in
theorem witness_EndlessLoopStopsAfter64Stages : ∀ s place,
    (s, place) ∈ ([(loopList, fun _ => 0), (backList, fun k => k % 2), (longList, fun k => 64 + k)] : List (State × (Nat → Nat))) →
    s.mail = .empty ∧ storeWf s.str.store = true ∧ (given s ⟨0x0D, 1, [0, 0]⟩).CanTake ⟨0x0D, 1, [0, 0]⟩ ∧
    s.runner.state = .idle ∧ s.str.entries.get .i0 = some (place 0) ∧
    (∀ k, k < 64 → place k < 128 ∧ goesOn s (place k) (place (k + 1))) ∧
    ∃ t, exec (.runnerStart 1 [0, 0]) (given s ⟨0x0D, 1, [0, 0]⟩) = .next t ∧
      decide (t.runner.stopCause = .runaway ∧ t.runner.stopIndex = if place 64 < 128 then .at 0 else .endOfStore) = true := by
  intro s place h
  simp only [List.mem_cons, Prod.mk.injEq, List.not_mem_nil, or_false] at h
  have chain (s : State) (place : Nat → Nat)
      (h : ((List.range 64).all fun k => decide (place k < 128) && goes s (place k) (place (k + 1))) = true) :
      ∀ k, k < 64 → place k < 128 ∧ goesOn s (place k) (place (k + 1)) := fun k hk => by
    have := List.all_eq_true.1 h k (List.mem_range.2 hk)
    simp only [Bool.and_eq_true, decide_eq_true_eq] at this
    exact ⟨this.1, goesOn_of_goes this.2⟩
  rcases h with ⟨h, k⟩ | ⟨h, k⟩ | ⟨h, k⟩ <;> subst h <;> subst k <;>
    exact ⟨by decide, by decide, given_takes _ _ rfl, by decide, by decide, chain _ _ (by decide),
      next_of_answers (by decide)⟩

/-- A list that waits at place 0 on DOOR OPEN, and the same held. -/
def waitsAt0 : State := waitList.setRunner { waitList.runner with
  state := .waiting, list := some .i0, current := some 0, waitingOn := .condition, secondsLeft := some 60
  pollTimer := some 500 }
def heldAt0 : State := waitList.setRunner { waitList.runner with
  state := .suspended, list := some .i0, current := some 0, resume := some ⟨0, some 60, .none⟩ }

theorem witness_HoldResumeStopControlTheList :
    (∀ (s : State) k tag, (given s ⟨k, tag, []⟩).CanTake ⟨k, tag, []⟩) ∧ waitsAt0.mail = .empty ∧ heldAt0.mail = .empty ∧
    (waitsAt0.runner.state = .waiting ∧ waitsAt0.runner.current = some 0 ∧ waitsAt0.runner.resume = none) ∧
    (heldAt0.runner.state = .suspended ∧ heldAt0.runner.resume = some ⟨0, some 60, .none⟩ ∧
      decodeStage (heldAt0.stage 0).bytes = some (.wait .doorOpen 60 none) ∧ (testCond .doorOpen heldAt0).2 = false) ∧
    s0.runner.state = .idle :=
  ⟨fun _ _ _ => given_takes _ _ rfl, by decide, by decide, by decide, by decide, by decide⟩

/-- An OPERATE held at place 0, with what it saved of its operation. -/
def heldOperate (o : Placed) : State := (withEntry 0 (withStage 0 ⟨9, 4, 1, 0, 8, 0, 0, 0⟩ s0)).setRunner { s0.runner with
  state := .suspended, list := some .i0, resume := some ⟨0, none, o⟩ }

set_option maxRecDepth 100000 in
/-- R154: the condition holds now; the operation is placed, has ended DONE, FAILED or ABORTED, or nothing is saved. -/
theorem witness_HoldResumeStopControlTheList_resume :
    let resumes (s : State) (p : State → Bool) := answers (exec (.runnerResume 1 []) (given s ⟨0x0F, 1, []⟩)) p
    (∀ o, (heldOperate o).mail = .empty ∧ storeWf (heldOperate o).str.store = true ∧
      (heldOperate o).runner.state = .suspended ∧ (heldOperate o).runner.resume = some ⟨0, none, o⟩) ∧
    (resumes (heldAt0.setDoor .d1 ⟨true, none⟩) fun t => (t.stage 0).outcome == .done) = true ∧
    (resumes (heldOperate .placed) fun t => t.runner.waitingOn == .operationEnd && t.ops.slot.isNone) = true ∧
    (resumes (heldOperate (.ended .done)) fun t => (t.stage 0).outcome == .done) = true ∧
    (resumes (heldOperate (.ended .failed)) fun t => (t.stage 0).outcome == .failed) = true ∧
    (resumes (heldOperate (.ended .aborted)) fun t => (t.stage 0).outcome == .failed) = true ∧
    (resumes (heldOperate .none) fun t => t.runner.waitingOn == .operationEnd && t.aqu.purgeActive) = true :=
  ⟨fun _ => ⟨rfl, rfl, rfl, rfl⟩, by decide, by decide, by decide, by decide, by decide, by decide⟩

set_option maxRecDepth 100000 in
/-- A poll that finds DOOR OPEN true, false in either phase, false at the last second, and false without a timeout. -/
theorem witness_PollTestsThenCountsTimeout :
    let p (phase : Nat) (left : Option Nat) := waitsAt0.setRunner { waitsAt0.runner with
      pollPhase := phase, secondsLeft := left }
    let opened := waitsAt0.setDoor .d1 ⟨true, none⟩
    (∀ ph l, (p ph l).mail = .empty ∧ storeWf (p ph l).str.store = true ∧ (p ph l).runner.state = .waiting ∧
      (p ph l).runner.pollTimer.isSome = true ∧ (p ph l).runner.current = some 0 ∧ (p ph l).runner.waitingOn = .condition ∧
      (p ph l).runner.pollPhase = ph ∧ (p ph l).runner.secondsLeft = l ∧
      decodeStage ((p ph l).stage 0).bytes = some (.wait .doorOpen 60 none) ∧ (testCond .doorOpen (p ph l)).2 = false) ∧
    (testCond .doorOpen opened).2 = true ∧ (opened.stage 1).bytes.b0 = 0 :=
  ⟨fun _ _ => ⟨rfl, rfl, rfl, rfl, rfl, rfl, rfl, rfl, rfl, rfl⟩, by decide, by decide⟩

/-- An OPERATE at place 0 on which the runner waits; the operation in the slot is its own where it has been placed. -/
def operating (b1 b2 : Byte) (w : WaitingOn) (slot : Option Operation) : State :=
  let s := (withEntry 0 (withStage 0 ⟨9, b1, b2, 0, 8, 0, 0, 0⟩ (referenceL1 .homing .home 0 9 240 (.step 10))))
  (s.setRunner { s.runner with
    state := .waiting, list := some .i0, current := some 0, waitingOn := w, pollTimer := some 500
    placed := if w = .operationEnd then .placed else .none }).setOps ⟨slot, ⟨none, none, .running, .masks 0 0⟩⟩

theorem witness_PollTestsThenCountsTimeout_operate :
    (∀ b1 b2 w o, let s := operating b1 b2 w o
      s.mail = .empty ∧ s.runner.state = .waiting ∧ s.runner.current = some 0 ∧ s.runner.waitingOn = w ∧
      s.runner.pollTimer.isSome = true ∧ s.ops.slot = o ∧ s.aqu.policyMin ≤ 1000 ∧ (s.stepper .fL1).state = .homing ∧
      s.psq.state ≠ .run) ∧
    (∀ b1 : Byte, b1 ∈ ([1, 2, 3, 4] : List Byte) → let s := operating b1 0 .slot none
      storeWf s.str.store = true ∧ (s.stage 1).bytes.b0 = 0 ∧ (s.stage 0).bytes.b0 = 9 ∧
      1 ≤ (s.stage 0).bytes.b1.toNat ∧ (s.stage 0).bytes.b1.toNat ≤ 4) ∧
    ∀ j ∈ Stepper.all, Stepper.fL1.pos < j.pos → (8 : BitVec 8).toNat.testBit j.pos = false :=
  ⟨fun _ _ _ _ => ⟨rfl, rfl, rfl, rfl, rfl, rfl, by change 150 ≤ 1000; decide, rfl, by
    change PlantState.stopped ≠ .run; decide⟩, by decide, by decide⟩

set_option maxRecDepth 100000 in
/-- R150: the end of its own HOME completes the OPERATE; SUSPENDED, the end of a PURGE stays in the resume point (R152). -/
theorem test_operate_ends :
    (answers (exec (.homeSwitchClose .fL1) (operating 1 1 .operationEnd (some ⟨.home 8, .runner, false, some .fL1⟩))) fun t =>
      (t.stage 0).outcome == .done && t.runner.stopIndex == .at 1 && t.runner.burstCount == 1) = true ∧
    (let s := operating 4 1 .operationEnd (some ⟨.purge 8, .runner, false, none⟩)
     let s := (s.setRunner { s.runner with
       state := .suspended, resume := some ⟨0, none, .placed⟩ }).setAqu { s.aqu with purgeActive := true }
     answers (exec (.abortNow 1 [0]) (given s ⟨0x12, 1, [0]⟩)) fun t =>
       t.runner.resume == some ⟨0, none, .ended .aborted⟩) = true := by decide

theorem witness_TraceControlSetsCapture :
    (∀ tag a g l po pe, (given s0 ⟨0x16, tag, [a, g, l, po, pe]⟩).CanTake ⟨0x16, tag, [a, g, l, po, pe]⟩) ∧
    s0.trq.queue.length < 255 ∧ (3 : Byte).toNat ≤ 3 ∧ 4 ≤ (4 : Byte).toNat ∧
    ((2 : Byte).toNat.testBit 1 = true ∧ 2 ≤ (2 : Byte).toNat) ∧ ¬((5 : Byte).toNat.testBit 1 = true) :=
  ⟨fun _ _ _ _ _ _ => given_takes _ _ rfl, by decide⟩

/-- Capturing at level 2 with a period count. -/
def capturing (n : Nat) : State := s0.setTrq { s0.trq with capture := .capturing, level := 2, periodCount := n }

set_option maxRecDepth 100000 in
/-- R160: the period count reaches the snapshot period of 16, or does not. -/
theorem witness_TraceControlSetsCapture_period : ∀ n, n = 14 ∨ n = 15 → (capturing n).Calm ∧
    (capturing n).trq.capture = .capturing ∧ (capturing n).trq.level = 2 ∧
    ∃ t, exec .controlPeriodExpiry (capturing n) = .next t ∧ decide (t.trq.queue.length < 256 ∧
      t.trq.periodCount = if n = 14 then 15 else 0) = true := by
  intro n h
  rcases h with h | h <;> subst h <;> exact ⟨⟨rfl, rfl⟩, rfl, rfl, next_of_answers (by decide)⟩

theorem witness_TraceReadTakesFromHead : ∀ s tag n, (given s ⟨0x17, tag, [n]⟩).CanTake ⟨0x17, tag, [n]⟩ :=
  fun _ _ _ => given_takes _ _ rfl

theorem witness_TraceMarkIsOffered :
    let full (n : Nat) (p : Policy) := s0.setTrq { s0.trq with
      capture := .capturing, policy := p, queue := List.replicate n ⟨0, .mark 0 .body⟩ }
    (∀ s tag hi lo, (given s ⟨0x18, tag, [hi, lo]⟩).CanTake ⟨0x18, tag, [hi, lo]⟩) ∧ s0.trq.capture ≠ .capturing ∧
    ∀ n p, (full n p).trq.queue.length = n ∧ (full n p).trq.capture = .capturing ∧ (full n p).trq.policy = p :=
  ⟨fun _ _ _ _ => given_takes _ _ rfl, by decide, fun n p => ⟨by change (List.replicate n _).length = n; simp, rfl, rfl⟩⟩

set_option maxRecDepth 100000 in
theorem witness_SentFrameIsReceived : (List.replicate 200 (0xA6 : Byte)).length ≤ 200 ∧ s0.blp.queue.length < 4 ∧
    ¬(s0.setBlp { s0.blp with queue := List.replicate 4 ⟨1, 0, [0]⟩ }).blp.queue.length < 4 := by decide

set_option maxRecDepth 100000 in
theorem witness_LostFramesAreCounted : startByte ∉ ([0xA6, 0, 0xFF] : List Byte) ∧
    ([0, 0] : List Byte) ≠ checkBytes (Frame.mk 1 0 [0]).body ∧ 200 < (201 : Byte).toNat ∧ s0.blp.queue.length < 4 := by
  decide

/-- A reply waiting; STARTED pending, first in kind order; RECIRC HOLD END alone pending, last in it; none; the flag set. -/
theorem witness_RepliesThenNoticesAreSent :
    let last := s0.setNotices { NoticeSet.empty with recircHoldEnd := some ⟨⟨.limit, 1⟩, 255⟩ }
    (∀ s k tag, (given s ⟨k, tag, []⟩).CanTake ⟨k, tag, []⟩) ∧
    (s0.setBlp { s0.blp with reply := some ⟨0x99, 0, [0]⟩ }).blp.reply = some ⟨0x99, 0, [0]⟩ ∧
    (s0.blp.reply = none ∧ s0.blp.holdFlag = false ∧
      (noticeTable s0.notices)[0]? = some (some (0, [0]), .empty)) ∧
    (last.blp.reply = none ∧ last.blp.holdFlag = false ∧
      (noticeTable last.notices)[11]? = some (some (255, [0, 0, 1]), .empty) ∧
      ((noticeTable last.notices).take 11).all (fun x => x.1.isNone) = true) ∧
    (s0.setBlp { s0.blp with holdFlag := true }).blp.holdFlag = true ∧
    ((noticeTable .empty).all fun x => x.1.isNone) = true :=
  ⟨fun _ _ _ => given_takes _ _ rfl, by decide, by decide, by decide, by decide, by decide⟩

theorem witness_RefusedBeforeTheBlock :
    (∀ k tag, (given s0 ⟨k, tag, [5]⟩).CanTake ⟨k, tag, [5]⟩) ∧ (0 : Byte).toNat = 0 ∧ 0x1C < (0x1D : Byte).toNat ∧
    s0.mail = .empty ∧ (Instr.allowance 1 [5]).requestForm = some ⟨⟨0x05, 1, [5]⟩, false⟩ ∧
    (s0.setBlp { s0.blp with reply := some ⟨0x99, 0, [0]⟩ }).blp.reply.isSome = true ∧
    (∀ tag x, (given s0 ⟨7, tag, x :: List.replicate 5 0⟩).CanTake ⟨7, tag, x :: List.replicate 5 0⟩) ∧
    9 < (10 : Byte).toNat ∧ (List.replicate 5 (0 : Byte)).length ≠ 6 :=
  ⟨fun _ _ => given_takes _ _ rfl, by decide, by decide, by decide, rfl, by decide, fun _ _ => given_takes _ _ rfl,
    by decide, by decide⟩

theorem witness_RefusalChangesNothing :
    let f : Frame := ⟨0x02, 1, [0, 2, 0, 200]⟩
    (Instr.zoneSet 1 [0, 2, 0, 200]).requestForm = some ⟨f, true⟩ ∧ (given s0 f).CanTake f ∧ (given s0 f).Calm ∧
    ∃ t, exec (.zoneSet 1 [0, 2, 0, 200]) (given s0 f) = .next t ∧ decide (t.blp.reply = some ⟨0x82, 1, [4]⟩) = true :=
  ⟨rfl, given_takes _ _ rfl, ⟨rfl, rfl⟩, next_of_answers (by decide)⟩

theorem witness_ReadsAnswerAndChangeNothing : ∀ (s : State) (k tag x n : Byte),
    (given s ⟨k, tag, []⟩).CanTake ⟨k, tag, []⟩ ∧ (given s ⟨k, tag, [x]⟩).CanTake ⟨k, tag, [x]⟩ ∧
      (given s ⟨k, tag, [x, n]⟩).CanTake ⟨k, tag, [x, n]⟩ :=
  fun _ _ _ _ _ => ⟨given_takes _ _ rfl, given_takes _ _ rfl, given_takes _ _ rfl⟩

/-- F-U1 IDLE at position 50. -/
def idleU1 : State := s0.setStepper .fU1 { s0.stepper .fU1 with state := .idle, position := some 50, target := 50 }

set_option maxRecDepth 100000 in
/-- R105, R107: with the switch CLOSED the operation ends at once; a VERIFY takes over an automatic one; a VERIFY of
UNHOMED steppers ends FAILED. -/
theorem witness_OperationTakesSlotOrIsRefused_edges :
    let asks (s : State) (c : Instr) (k : Byte) (p : State → Bool) := answers (exec c (given s ⟨0x11, 1, [k, 0, 1]⟩)) p
    let closed := idleU1.setStepper .fU1 { idleU1.stepper .fU1 with switch := .closed }
    let auto := idleU1.setStepper .fU1 { idleU1.stepper .fU1 with
      state := .verifying, refKind := .automaticVerify, prior := 50, limit := 90, timer := .step 10 }
    (1 : Byte) = bitFor .fU1 ∧ closed.Calm ∧ auto.Calm ∧ s0.Calm ∧
    (∀ n : Stepper, (s0.stepper n).state = .unhomed) ∧
    (asks closed (.operationHome 1 [1, 0, 1]) 1 fun t => t.ops.slot.isNone && t.ops.status.state == .ended .done) = true ∧
    (asks closed (.operationVerify 1 [2, 0, 1]) 2 fun t =>
      t.ops.slot.isNone && t.ops.status.detail == .masks 1 0 && (t.stepper .fU1).slipCount == 1) = true ∧
    (asks auto (.operationVerify 1 [2, 0, 1]) 2 fun t => t.ops.slot.isSome && (t.stepper .fU1).takenOver) = true ∧
    (asks s0 (.operationVerify 1 [2, 0, 1]) 2 fun t => t.ops.status.state == .ended .failed) = true :=
  ⟨by decide, ⟨rfl, rfl⟩, ⟨rfl, rfl⟩, ⟨rfl, rfl⟩, fun n => by cases n <;> rfl, by decide, by decide, by decide, by decide⟩

theorem witness_OperationTakesSlotOrIsRefused :
    (∀ s tag k x y, (given s ⟨0x11, tag, [k, x, y]⟩).CanTake ⟨0x11, tag, [k, x, y]⟩) ∧
    (idleU1.Calm ∧ idleU1.ops.slot = none ∧ idleU1.aqu.policyMin ≤ 1000 ∧ (idleU1.stepper .fU1).switch = .opened ∧
      (idleU1.stepper .fU1).state = .idle ∧ (idleU1.stepper .fU1).position = some 50) ∧
    ((1 : Byte).toNat.testBit Stepper.fU1.pos = true ∧ ∀ m : Stepper, m.pos < Stepper.fU1.pos → (1 : Byte).toNat.testBit m.pos = false) ∧
    ((0x80 : Byte).toNat.testBit Stepper.eev.pos = true ∧
      ∀ m : Stepper, m.pos < Stepper.eev.pos → (0x80 : Byte).toNat.testBit m.pos = false) ∧
    (heating.Calm ∧ heating.ops.slot = none ∧ heating.psq.state = .run ∧ heating.psq.mode = some .heat) ∧
    (s0.setOps ⟨some ⟨.purge 1, .body, false, none⟩, s0.ops.status⟩).ops.slot.isSome = true :=
  ⟨fun _ _ _ _ _ => given_takes _ _ rfl, ⟨⟨rfl, rfl⟩, by decide, by decide, by decide, by decide, by decide⟩,
    ⟨by decide, fun m h => by cases m <;> exact absurd h (by decide)⟩,
    ⟨by decide, fun m h => by cases m <;> first | exact absurd h (by decide) | decide⟩, ⟨⟨rfl, rfl⟩, by decide, by decide, by decide⟩, by decide⟩

/-- A PURGE and a HOME of F-L1 in hand. -/
def purging : State := (s0.setAqu { s0.aqu with purgeActive := true, purgeCount := 20 }).setOps
  ⟨some ⟨.purge 20, .body, false, none⟩, ⟨some .purge, some .body, .running, .zero⟩⟩
def homingL1 : State := (referenceL1 .homing .home 0 3 240 (.step 10)).setOps
  ⟨some ⟨.home 8, .body, false, some .fL1⟩, ⟨some .home, some .body, .running, .zero⟩⟩

theorem witness_AbortActsBySlotAndKind :
    (∀ s tag b, (given s ⟨0x12, tag, [b]⟩).CanTake ⟨0x12, tag, [b]⟩) ∧ (s0.Calm ∧ s0.ops.slot = none) ∧
    (purging.Calm ∧ purging.ops.slot = some ⟨.purge 20, .body, false, none⟩ ∧ purging.aqu.purgeActive = true ∧
      purging.aqu.policyMin ≤ 1000) ∧
    (homingL1.Calm ∧ homingL1.ops.slot = some ⟨.home 8, .body, false, some .fL1⟩ ∧
      (homingL1.stepper .fL1).state = .homing) ∧ 2 ≤ (2 : Byte).toNat :=
  ⟨fun _ _ _ => given_takes _ _ rfl, ⟨⟨rfl, rfl⟩, by decide⟩, ⟨⟨rfl, rfl⟩, by decide, by decide, by decide⟩,
    ⟨⟨rfl, rfl⟩, by decide, by decide⟩, by decide⟩

/-- F-L1 in a VERIFY operation, at a known position or beyond it, taken over or not, with a verify due or not. -/
theorem witness_AbortActsBySlotAndKind_verify : ∀ count taken due aborted,
    let s := inOperation .verifying .operationVerify count 222 (.verify 8) aborted
    let s := s.setStepper .fL1 { s.stepper .fL1 with
      takenOver := taken, verifyDue := due, position := if count ≤ 182 then some (182 - count) else none }
    s.Calm ∧ s.ops.slot = some ⟨.verify 8, .body, aborted, some .fL1⟩ ∧ (s.stepper .fL1).state = .verifying ∧
    (s.stepper .fL1).takenOver = taken ∧ (s.stepper .fL1).verifyDue = due ∧ (s.stepper .fL1).switch = .opened ∧
    (s.stepper .fL1).position = (if count ≤ 182 then some (182 - count) else none) :=
  fun _ _ _ _ => ⟨⟨rfl, rfl⟩, rfl, rfl, rfl, rfl, rfl, rfl⟩

set_option maxRecDepth 100000 in
/-- A restart in RUN with nothing to lower; with heaters on, and stages that no longer fit; with an operation of each kind. -/
theorem witness_RestartSetsAndKeeps :
    let s := workedShed.setAct { workedShed.act with stepsOn := workedShed.act.stepsOn.set .u1 1 }
    (∀ (s : State) tag, (given s ⟨0x1C, tag, []⟩).CanTake ⟨0x1C, tag, []⟩) ∧ heating.ops.slot = none ∧
    (deckOn .upper s.act.stepsOn.get = 1 ∧ deckOn .lower s.act.stepsOn.get = 0) ∧
    blowerPower s.sha.blowers s.sha.stages ≤ s.sha.inUse ∧
    100 < blowerPower (onFloors 3).sha.blowers (onFloors 3).sha.stages ∧
    (purging.ops.slot.map (·.work.kind) = some .purge ∧ homingL1.ops.slot.map (·.inHand) = some (some .fL1)) ∧
    (answers (exec (.restart 1 []) (given s ⟨0x1C, 1, []⟩)) fun t =>
      t.sha.stages == s.sha.stages && (t.deck .upper).afterRun == some 60000 && t.psq.state == .rampdown) = true ∧
    (answers (exec (.restart 1 []) (given (onFloors 3) ⟨0x1C, 1, []⟩)) fun t =>
      t.sha.stages == ⟨1, 1⟩ && t.sha.last.shed) = true ∧
    (answers (exec (.restart 1 []) (given purging ⟨0x1C, 1, []⟩)) fun t =>
      t.ops.status.state == .ended .aborted && !t.aqu.purgeActive) = true ∧
    (answers (exec (.restart 1 []) (given homingL1 ⟨0x1C, 1, []⟩)) fun t => (t.stepper .fL1).state == .unhomed) = true :=
  ⟨fun _ _ => given_takes _ _ rfl, by decide, by decide, by decide, by decide, by decide, by decide, by decide, by decide,
    by decide⟩

/-- RUN in HEAT with a control period waiting: a lawful state that a step leaves. -/
def lawful : State := heating.setPending [.controlPeriodExpiry]

set_option maxRecDepth 100000 in
theorem witness_LawsStep : ∃ t, step lawful = .next t ∧ true = true := next_of_answers (p := fun _ => true) (by decide)

theorem witness_ZonesAndAllocatorStayInRange : lawful.ZonesInRange ∧ lawful.sha.Lawful :=
  ⟨⟨by decide, fun z => by cases z <;> constructor <;> decide⟩, by constructor <;> decide⟩

theorem witness_DamperStaysAboveMinimum : (lawful.aqu.policyMin ≤ 1000 ∧
    (lawful.aqu.holdActive = false → lawful.aqu.policyMin * 400 / 1000 ≤ lawful.aqu.damper)) ∧ lawful.AirLaw :=
  ⟨by decide, ⟨by constructor <;> decide, by decide⟩⟩

theorem witness_PlantAndDriveStayLawful : lawful.PlantLaw ∧ lawful.dln.TimerLaw := by
  refine ⟨?_, by constructor <;> decide⟩
  constructor
  · exact ⟨.inr rfl, rfl⟩
  · intro m h
    cases m <;> first | exact absurd h (by decide) | decide
  · decide
  · decide
  · decide
  · decide
  · decide
  · rfl

/-- RUN in HEAT at 1500 W: the EEV target 160 + 1500 × 60 / 1000 of R84, and the fan on. -/
theorem witness_PlantAndDriveStayLawful_outputs : ((lawful.setPsq { lawful.psq with eevTarget := 250 }).setStepper .eev
    { lawful.stepper .eev with target := 250 }).OutputLaw := by
  constructor <;> decide

theorem witness_SteppersStayLawful : lawful.SteppersLawful := by
  intro n
  cases n <;> exact ⟨by decide, ⟨rfl, rfl, rfl⟩, by decide, fun _ => rfl⟩

theorem witness_HeatersStayOffWithoutBlower : lawful.HeatersLawful := by
  intro d
  cases d <;> exact ⟨fun h => absurd h (by decide), by decide, by decide⟩

theorem witness_ChannelsAndWatchesStayLawful : lawful.SensorsLawful := by
  refine ⟨fun c => ?_, fun i => by cases i <;> constructor <;> decide⟩
  cases c <;> exact ⟨by decide, by decide, (fun _ h => nomatch h), by decide⟩

theorem witness_RunnerAndStoreStayLawful : lawful.RunnerLaw ∧ lawful.StoreLaw := by
  refine ⟨⟨⟨by decide, by decide, ⟨rfl, rfl, rfl⟩⟩, by decide⟩, ⟨by decide, fun l i h => ?_⟩⟩
  cases l <;> exact absurd h nofun

theorem witness_QueuesAndSlotStayLawful : (lawful.trq.Lawful ∧ lawful.blp.QueueLaw) ∧ lawful.SlotLaw := by
  refine ⟨⟨by constructor <;> decide, ⟨by decide, fun _ h => nomatch h⟩⟩, ?_⟩
  change OpState.ended .done ≠ .running
  decide

end Sys2Proof.Tests
end

section
/-! PROOFS. Zone regulation (01): what the blocks of a control period leave of the zone table (R7, R10 to R13, R16, R17),
and the statement of the control period. -/

namespace Sys2Proof.Machine

open Sys2Proof.Spec

/-! ## Borrowing (R16, R17) -/

/-- The borrowing of the model and that of the statement read the same deck-mates. -/
theorem goodMates_eq_mateValues (s : State) (z : Zone) : goodMates s.zrg.zones z = mateValues s z := by
  have hmate (m : Zone) : (decide (m ≠ z) && decide ((s.zone m).sensorUse = .good)) =
      decide (m ≠ z ∧ (s.zone m).sensorUse = .good) := (Bool.decide_and _ _).symm
  unfold goodMates mateValues
  exact congrArg (fun p => ((deckZones (zoneDeck z)).filter p).filterMap _) (funext hmate)

theorem borrow_of_no_mates {s : State} {z : Zone} (h : mateValues s z = []) :
    borrow s.zrg.zones z = { s.zone z with sensorUse := .blind } := by
  unfold borrow
  rw [goodMates_eq_mateValues, h]
  rfl

theorem borrow_of_mates {s : State} {z : Zone} (h : mateValues s z ≠ []) :
    borrow s.zrg.zones z =
      { s.zone z with
        measured := some ((mateValues s z).sum.tdiv (mateValues s z).length), sensorUse := .borrowed } := by
  unfold borrow
  rw [goodMates_eq_mateValues]
  split
  · contradiction
  · rfl

/-- A zone's record after the borrow refresh: only the record of a zone whose channel is LOST is written. -/
def refreshed (s : State) (z : Zone) : ZoneRec :=
  if (s.channel (zoneChannel z)).quality = .lost then borrow s.zrg.zones z else s.zone z

theorem zone_borrowRefresh (s : State) (z : Zone) : (borrowRefresh s).zone z = refreshed s z := by
  simp only [borrowRefresh, refreshed, State.zone_setZones, Zones.get_ofFn]

/-- Borrowing writes nothing but the measured value and the sensor use. -/
theorem refreshed_frame (s : State) (z : Zone) :
    ∃ m u, refreshed s z = { s.zone z with measured := m, sensorUse := u } := by
  unfold refreshed
  split
  · by_cases h : mateValues s z = []
    · exact ⟨_, _, borrow_of_no_mates h⟩
    · exact ⟨_, _, borrow_of_mates h⟩
  · exact ⟨_, _, rfl⟩

/-! ## Demand, integrator, in band (R10 to R13) -/

theorem clampInt_eq_max_min {lo hi : Int} (h : lo ≤ hi) (x : Int) : clampInt lo hi x = max lo (min hi x) := by
  unfold clampInt
  split
  · omega
  · split <;> omega

theorem windup_iff (p i e : Int) :
    windup p i e = true ↔ 1000 ≤ (p + i).natAbs ∧ ((0 < e ∧ 0 < i) ∨ (e < 0 ∧ i < 0)) := by
  simp only [windup, Bool.and_eq_true, Bool.or_eq_true, decide_eq_true_eq]

/-- The integrator moves outside the deadband, in a zone without a freeze, and not into windup (R11). -/
theorem integratorAfter_eq (g : Gains) (r : ZoneRec) (e : Int) :
    integratorAfter g r e =
      if g.deadband < e.natAbs ∧ r.doorFreeze = false ∧
          ¬(1000 ≤ (g.kp * e + r.integrator).natAbs ∧ ((0 < e ∧ 0 < r.integrator) ∨ (e < 0 ∧ r.integrator < 0))) then
        max (-(g.imax : Int)) (min g.imax (r.integrator + ((g.ki : Int) * e).tdiv 16))
      else r.integrator := by
  have himax : -(g.imax : Int) ≤ g.imax := by omega
  simp only [integratorAfter, clampInt_eq_max_min himax, ← windup_iff, Bool.and_eq_true, decide_eq_true_eq,
    Bool.not_eq_true', Bool.not_eq_true, and_assoc]

/-- A period writes nothing but integrator and demand. -/
theorem period_frame (g : Gains) (r : ZoneRec) : ∃ i d, r.period g = { r with integrator := i, demand := d } := by
  unfold ZoneRec.period
  split
  · exact ⟨_, _, rfl⟩
  · exact ⟨_, _, rfl⟩
  · split
    · split
      · exact ⟨_, _, rfl⟩
      · exact ⟨_, _, rfl⟩
    · exact ⟨_, _, rfl⟩

theorem computes_eq (u : SensorUse) : u.computes = !decide (u = .blind) := by
  cases u <;> rfl

/-- In band is tested on the record the demand was computed from (R7, R13). -/
theorem inBandAt_period (g : Gains) (r : ZoneRec) : (r.period g).inBandAt g = r.inBandAt g := by
  obtain ⟨i, d, h⟩ := period_frame g r
  rw [h]
  rfl

/-- A period does what R10 to R13 say, by the zone's mode, its measured value and its sensor use. -/
theorem period_eq_periodOf (g : Gains) (r : ZoneRec) :
    ((r.period g).demand, (r.period g).integrator, r.inBandAt g) = periodOf g r r.sensorUse r.measured := by
  unfold periodOf ZoneRec.period ZoneRec.inBandAt
  cases r.mode with
  | off => rfl
  | vent => rfl
  | regulate =>
    cases r.measured with
    | none => simp only [ite_self]
    | some m =>
      by_cases hblind : r.sensorUse = .blind
      · simp [computes_eq, hblind]
      · have he : piError r m = max (-200) (min 200 (r.setpoint - m)) := clampInt_eq_max_min (by decide) _
        have hd (x : Int) : clampInt (-1000) 1000 x = max (-1000) (min 1000 x) := clampInt_eq_max_min (by decide) x
        simp [computes_eq, hblind, ZoneRec.regulated, hd, he, integratorAfter_eq]

theorem zone_zonePeriod (s : State) (z : Zone) :
    (zonePeriod s).zone z =
      { (s.zone z).period s.zrg.gains with inBand := (s.zone z).inBandAt s.zrg.gains } := by
  simp only [zonePeriod, State.zone_setZones, Zones.get_ofFn, inBandAt_period]

/-! ## The share pass (R40), and the whole period -/

/-- A zone's record with what a share pass stores in it (R40). -/
def withShare (r : ZoneRec) (x : ZoneShare) : ZoneRec :=
  { r with share := x.share, shortfall := x.shortfall, granted := x.grant }

/-- Of the Zone Regulator a share pass writes nothing but the shares, shortfalls and grants of the zones (R40). -/
theorem zrg_sharePass (s : State) :
    ∃ x : Zones ZoneShare, (sharePass s).zrg = { s.zrg with zones := .ofFn fun z => withShare (s.zone z) (x.get z) } := by
  unfold sharePass
  dsimp only
  generalize hs2 : passDirection (airPeriod _ s) = s2
  have hbefore : s2.zrg = s.zrg := by
    rw [← hs2]
    exact ((keeps_airPeriod _ s).next (keeps_passDirection _) (cs := [.sha, .aqu, .ops, .notices, .mail])).get .zrg
  generalize passFigures _ s2 = p
  refine ⟨p.zones, ?_⟩
  calc _ = _ := (keeps_passTrace _ _ _).get .zrg
    _ = _ := (keeps_actPass _ _ _ _).get .zrg
    _ = (passStore _ _ _ p s2).zrg := (keeps_plantPeriod _ _ _).get .zrg
    _ = { s2.zrg with zones := .ofFn fun z => withShare (s2.zone z) (p.zones.get z) } := rfl
    _ = _ := by simp only [State.zone, hbefore]

/-- A zone's record after a control period, with what its share pass stored. -/
def zoneAfterPeriod (s : State) (x : ZoneShare) (z : Zone) : ZoneRec :=
  withShare { (refreshed s z).period s.zrg.gains with inBand := (refreshed s z).inBandAt s.zrg.gains } x

/-- What the work of a control period leaves of the Zone Regulator. -/
theorem zrg_controlPeriodWork (s : State) :
    ∃ x : Zones ZoneShare, (controlPeriodWork s).zrg =
      { s.zrg with periodTimer := some 2000, zones := .ofFn fun z => zoneAfterPeriod s (x.get z) z } := by
  obtain ⟨x, hx⟩ :=
    zrg_sharePass (zonePeriod (borrowRefresh (s.setZrg { s.zrg with periodTimer := Timer.seconds controlPeriod })))
  refine ⟨x, hx.trans ?_⟩
  simp only [zone_zonePeriod, zone_borrowRefresh]
  rfl

/-- The work of a control period puts no end of an operation on its way to a runner that awaits none. -/
theorem controlPeriodWork_opEnd {s : State} (h : s.Calm) : (controlPeriodWork s).mail.opEnd = none := by
  obtain ⟨hmail, hawaits⟩ := h
  have hkeeps : Keeps (.zrg :: .sha :: .aqu :: .heat :: plantParts) s (controlPeriodWork s) :=
    (((keeps_setZrg s _).next (keeps_borrowRefresh _) (cs := [.zrg])).next (keeps_zonePeriod _) (cs := [.zrg])).next
      (keeps_sharePass _)
  have hend := (hkeeps.get .opEnd (by decide) hawaits).2
  rw [hend, hmail]
  rfl

/-- With no operation end on its way, the end of a command answers and writes nothing of the Zone Regulator. -/
theorem settle_keeps_zrg {s : State} (h : s.mail.opEnd = none) : ∃ t, settle s = .next t ∧ t.zrg = s.zrg :=
  ⟨_, settle_of_noEnd h,
    ((Keeps.ite (keeps_takeTrip s) (.refl _ s)).next (keeps_setMail _ _) (cs := [.runner, .opEnd, .mail])).get .zrg⟩

theorem exec_controlPeriodExpiry_eq (s : State) : exec .controlPeriodExpiry s = settle (controlPeriodWork s) := rfl

/-- A control period is answered, with the zone table its work left: the end of the command writes the runner alone. -/
theorem exec_controlPeriodExpiry {s : State} (h : s.Calm) :
    ∃ t, exec .controlPeriodExpiry s = .next t ∧ t.zrg = (controlPeriodWork s).zrg := by
  rw [exec_controlPeriodExpiry_eq]
  exact settle_keeps_zrg (controlPeriodWork_opEnd h)

/-- A control period is answered, and every zone's record is `zoneAfterPeriod`. -/
theorem controlPeriod_answered {s : State} (h : s.Calm) :
    ∃ t, ∃ x : Zones ZoneShare, exec .controlPeriodExpiry s = .next t ∧ t.zrg.periodTimer = some 2000 ∧
      t.zrg.gains = s.zrg.gains ∧ t.zrg.doors = s.zrg.doors ∧ ∀ z, t.zone z = zoneAfterPeriod s (x.get z) z := by
  obtain ⟨t, ht, hwork⟩ := exec_controlPeriodExpiry h
  obtain ⟨x, hx⟩ := zrg_controlPeriodWork s
  have hz := hwork.trans hx
  refine ⟨t, x, ht, ?_, ?_, ?_, fun z => ?_⟩
  · rw [hz]
  · rw [hz]
  · rw [hz]
  · rw [State.zone, hz, Zones.get_ofFn]

/-! ## What a control period leaves of one zone -/

section
variable (s : State) (x : ZoneShare) (z : Zone)

/-- Neither the demand computation nor the share pass writes where the temperature comes from. -/
theorem zoneAfterPeriod_source :
    (zoneAfterPeriod s x z).measured = (refreshed s z).measured ∧
      (zoneAfterPeriod s x z).sensorUse = (refreshed s z).sensorUse := by
  obtain ⟨i, d, h⟩ := period_frame s.zrg.gains (refreshed s z)
  rw [zoneAfterPeriod, h]
  exact ⟨rfl, rfl⟩

/-- R10 to R13 hold of the record as it stood, with the temperature as the borrow refresh left it. -/
theorem zoneAfterPeriod_computed :
    ((zoneAfterPeriod s x z).demand, (zoneAfterPeriod s x z).integrator, (zoneAfterPeriod s x z).inBand) =
      periodOf s.zrg.gains (s.zone z) (zoneAfterPeriod s x z).sensorUse (zoneAfterPeriod s x z).measured := by
  obtain ⟨hm, hu⟩ := zoneAfterPeriod_source s x z
  obtain ⟨m, u, hframe⟩ := refreshed_frame s z
  rw [hm, hu]
  refine (period_eq_periodOf s.zrg.gains (refreshed s z)).trans ?_
  rw [hframe]
  rfl

/-- Settings, occupancy, door freeze and flap are kept. -/
theorem zoneAfterPeriod_frame :
    let u := zoneAfterPeriod s x z
    let r := s.zone z
    u.mode = r.mode ∧ u.setpoint = r.setpoint ∧ u.weight = r.weight ∧ u.occupancy = r.occupancy ∧
      u.doorFreeze = r.doorFreeze ∧ u.kmax = r.kmax ∧ u.flapMin = r.flapMin ∧ u.flapMax = r.flapMax ∧
      u.flapUsable = r.flapUsable := by
  obtain ⟨m, u, hrefreshed⟩ := refreshed_frame s z
  obtain ⟨i, d, hperiod⟩ := period_frame s.zrg.gains (refreshed s z)
  rw [zoneAfterPeriod, hperiod, hrefreshed]
  exact ⟨rfl, rfl, rfl, rfl, rfl, rfl, rfl, rfl, rfl⟩

end

/-- Settles O7: the zone table after the period is read off the work of the period block by block, the end of the command
leaving it alone; demand and temperature source are then facts of one record. -/
theorem controlPeriodBorrowsAndComputes : Obligations.ControlPeriodBorrowsAndComputes := by
  refine ⟨fun s hcalm => ?_, fun s t z hcalm hexec => ?_⟩
  · obtain ⟨t, x, ht, htimer, hgains, hdoors, hzone⟩ := controlPeriod_answered hcalm
    refine ⟨t, ht, htimer, hgains, hdoors, fun z => ?_⟩
    rw [hzone z]
    exact ⟨zoneAfterPeriod_computed s _ z, zoneAfterPeriod_frame s _ z⟩
  · obtain ⟨t', x, ht, -, -, -, hzone⟩ := controlPeriod_answered hcalm
    obtain rfl : t' = t := Host.Outcome.next.inj (ht.symm.trans hexec)
    obtain ⟨hm, hu⟩ := zoneAfterPeriod_source s (x.get z) z
    rw [← hzone z] at hm hu
    rw [hm, hu]
    refine ⟨fun hgood => ?_, fun hlost hnone => ?_, fun hlost hmates => ?_⟩
    · rw [refreshed, if_neg hgood]
      exact ⟨rfl, rfl⟩
    · rw [refreshed, if_pos hlost, borrow_of_no_mates hnone]
      exact ⟨rfl, rfl⟩
    · rw [refreshed, if_pos hlost, borrow_of_mates hmates]
      exact ⟨rfl, rfl⟩

end Sys2Proof.Machine
end

section
/-! PROOFS. The share pass (02): what its figures are read from and where they stand afterwards, the compressor command
and the starvation figures (R30, R34, R35), and the statement of step 4. -/

namespace Sys2Proof.Machine

/-! ## The recorded wanted mode

The Plant Sequencer's work reads the wanted mode and writes it nowhere else than on a pass's arrival (R63). -/

section
variable (s : State)

@[simp] theorem psq_dlnStop : (dlnStop s).psq = s.psq := (keeps_dlnStop s).get .psq
@[simp] theorem psq_dlnPower (p : Nat) : (dlnPower p s).psq = s.psq := (keeps_dlnPower p s).get .psq
@[simp] theorem psq_dlnStart (p : Nat) : (dlnStart p s).1.psq = s.psq := (keeps_dlnStart p s).get .psq
@[simp] theorem psq_plantRecord (c : PlantCause) : (plantRecord c s).psq = s.psq := (keeps_plantRecord c s).get .psq
@[simp] theorem psq_slotDefrostEnd (c : DefrostEnd) : (slotDefrostEnd c s).psq = s.psq :=
  (keeps_slotDefrostEnd c s).get .psq
@[simp] theorem psq_stepperTarget (n : Stepper) (g : Nat) : (stepperTarget n g s).psq = s.psq :=
  (keeps_stepperTarget n g s).get .psq
@[simp] theorem psq_raisePlantTrip (r : FaultRecord) : (raisePlantTrip r s).psq = s.psq := rfl
@[simp] theorem psq_raiseLockout : (raiseLockout s).psq = s.psq := rfl

@[simp] theorem wanted_ite (c : Prop) [Decidable c] (x y : State) :
    (if c then x else y).psq.wanted = if c then x.psq.wanted else y.psq.wanted := by
  split <;> rfl

@[simp] theorem wanted_eevUpdate : (eevUpdate s).psq.wanted = s.psq.wanted := by
  simp [eevUpdate]

@[simp] theorem wanted_plantOutputs : (plantOutputs s).psq.wanted = s.psq.wanted := by
  simp [plantOutputs, fanUpdate]

@[simp] theorem wanted_enterRampdown (c : PlantCause) : (enterRampdown c s).psq.wanted = s.psq.wanted := by
  simp [enterRampdown]

@[simp] theorem wanted_defrostEndsInPlace (c : DefrostEnd) : (defrostEndsInPlace c s).psq.wanted = s.psq.wanted := by
  unfold defrostEndsInPlace defrostEnds
  cases s.psq.defrostMark <;> simp

@[simp] theorem wanted_plantTrip (c : TripCause) (k : Nat) : (plantTrip c k s).psq.wanted = s.psq.wanted := by
  simp [plantTrip]

@[simp] theorem wanted_enterStart (m : RunMode) (c : PlantCause) : (enterStart m c s).psq.wanted = s.psq.wanted := by
  simp [enterStart]

@[simp] theorem wanted_enterShift (v : Valve) (c : PlantCause) : (enterShift v c s).psq.wanted = s.psq.wanted := by
  simp [enterShift]

@[simp] theorem wanted_decideStart : (decideStart s).psq.wanted = s.psq.wanted := by
  unfold decideStart
  split
  · split <;> simp
  · simp

@[simp] theorem wanted_startDecision : (startDecision s).psq.wanted = s.psq.wanted := by
  simp [startDecision]

@[simp] theorem wanted_actOnWanted : (actOnWanted s).psq.wanted = s.psq.wanted := by
  unfold actOnWanted
  split
  · split
    · rfl
    · split <;> simp [*]
  · rfl

@[simp] theorem wanted_plantCommand (p : Nat) : (plantCommand p s).psq.wanted = s.psq.wanted := by
  simp [plantCommand]

@[simp] theorem wanted_suctionPeriod : (suctionPeriod s).psq.wanted = s.psq.wanted := by
  simp [suctionPeriod]

@[simp] theorem wanted_verifyPeriod : (verifyPeriod s).psq.wanted = s.psq.wanted := by
  unfold verifyPeriod
  split
  · cases s.psq.verifyWindow <;> simp
  · rfl

@[simp] theorem wanted_frostPeriod : (frostPeriod s).psq.wanted = s.psq.wanted := by
  simp [frostPeriod, defrostStart]

/-- The wanted mode a pass hands over stands recorded after the sequencer's period (R63). -/
@[simp] theorem wanted_plantPeriod (w : WantedMode) (p : Nat) : (plantPeriod w p s).psq.wanted = w := by
  simp [plantPeriod]

end

/-! ## What a pass reads and what it leaves (R26, R40, R41) -/

/-- The power available of a pass: Pa = max(0, A - B) (R28). -/
def passPa (s : State) : Nat := s.sha.effective - blowerPower s.sha.blowers (passStages s)

/-- The state steps 3 to 7 of a pass work from: the air period and the direction are done. -/
def afterDirection (s : State) : State :=
  passDirection (airPeriod (supplyAirflow s.sha.blowers (passStages s)) s)

/-- What steps 3 to 7 of the pass of a state decide. -/
def decidedFigures (s : State) : PassFigures := passFigures (passPa s) (afterDirection s)

/-- The state of a pass once its results are stored, before they are handed out. -/
def storedPass (s : State) : State :=
  passStore (passStages s) (blowerPower s.sha.blowers (passStages s)) (passPa s) (decidedFigures s) (afterDirection s)

theorem psq_afterDirection (s : State) : (afterDirection s).psq = s.psq :=
  ((keeps_airPeriod _ s).next (keeps_passDirection _) (cs := [.sha, .aqu, .ops, .notices, .mail])).get .psq

/-- Steps 1 and 2 write nothing of the Share Allocator but the direction and its counts. -/
theorem sha_afterDirection (s : State) : ∃ k : DirectionCounts, (afterDirection s).sha =
    { s.sha with direction := k.direction, idleCount := k.idle, flipCount := k.flip } := by
  unfold afterDirection
  generalize supplyAirflow _ _ = supply
  have hair : (airPeriod supply s).sha = s.sha := (keeps_airPeriod supply s).get .sha
  rw [← hair]
  exact ⟨_, (keeps_airDirection _ _ _).get .sha⟩

/-- Handing out the figures `p` of a pass leaves what it stored and the air unit as they are; the Plant Sequencer
records the wanted mode (R40, R63). -/
theorem handOut_leaves (st d : Decks Nat) (b : Nat) (p : PassFigures) (s : State) :
    let t := passTrace b p (actPass st d p (plantPeriod p.wanted p.pe s))
    t.sha = s.sha ∧ t.aqu = s.aqu ∧ t.psq.wanted = p.wanted := by
  have hplant := keeps_plantPeriod p.wanted p.pe s
  have hact := (keeps_actPass st d p (plantPeriod p.wanted p.pe s)).next (keeps_passTrace b p _)
    (cs := [.heat, .steppers, .trq, .notices])
  exact ⟨(hact.get .sha).trans (hplant.get .sha), (hact.get .aqu).trans (hplant.get .aqu),
    (congrArg Psq.wanted (hact.get .psq)).trans (wanted_plantPeriod s p.wanted p.pe)⟩

/-- A pass stores its results and hands them out (R26, R40). -/
theorem sharePass_eq (s : State) :
    sharePass s =
      passTrace (blowerPower s.sha.blowers (passStages s)) (decidedFigures s)
        (actPass (passStages s) (.ofFn fun d => decidedBase d s) (decidedFigures s)
          (plantPeriod (decidedFigures s).wanted (decidedFigures s).pe (storedPass s))) := rfl

theorem aqu_storedPass (s : State) : (storedPass s).aqu = (afterDirection s).aqu := rfl

/-- What of a pass stands once its results are handed out (R40). -/
theorem sharePass_leaves (s : State) :
    (sharePass s).sha = (storedPass s).sha ∧ (sharePass s).aqu = (afterDirection s).aqu ∧
      (sharePass s).psq.wanted = (decidedFigures s).wanted := by
  rw [sharePass_eq, ← aqu_storedPass]
  exact handOut_leaves _ _ _ _ _

/-- The state the pass of a control period begins from: sources and demands are in the zone table (R7, R8). -/
def passStart (s : State) : State :=
  zonePeriod (borrowRefresh (s.setZrg { s.zrg with periodTimer := Timer.seconds controlPeriod }))

theorem keeps_passStart (s : State) : Keeps [.zrg] s (passStart s) :=
  ((keeps_setZrg s _).next (keeps_borrowRefresh _) (cs := [.zrg])).next (keeps_zonePeriod _)

/-- A control period leaves what its pass leaves; the end of the command can change the runner alone. -/
theorem keeps_controlPeriod_of_pass {s t : State} (hcalm : s.Calm) (h : exec .controlPeriodExpiry s = .next t) :
    Keeps [.runner, .opEnd, .mail] (sharePass (passStart s)) t := by
  rw [exec_controlPeriodExpiry_eq, settle_of_noEnd (controlPeriodWork_opEnd hcalm)] at h
  rw [← Host.Outcome.next.inj h]
  exact (Keeps.ite (keeps_takeTrip _) (.refl _ _)).next (keeps_setMail _ _)

/-- A control period from `s` to `t` ran a pass whose steps 3 to 7 read the state `u`, with the power available `pa`. -/
structure PassRan (s u t : State) (pa : Nat) : Prop where
  psq : u.psq = s.psq
  sha : ∃ k : DirectionCounts,
    u.sha = { s.sha with direction := k.direction, idleCount := k.idle, flipCount := k.flip }
  powerAvailable : pa = t.sha.last.a - t.sha.last.b
  stored : ∃ st b, t.sha = (passStore st b pa (passFigures pa u) u).sha
  air : t.aqu = u.aqu
  recorded : t.psq.wanted = (passFigures pa u).wanted

/-- A control period is a pass on the Share Allocator and Plant Sequencer as they stood. -/
theorem controlPeriod_passRan {s t : State} (hcalm : s.Calm) (h : exec .controlPeriodExpiry s = .next t) :
    ∃ u pa, PassRan s u t pa := by
  have hstart := keeps_passStart s
  have hend := keeps_controlPeriod_of_pass hcalm h
  obtain ⟨hsha, haqu, hwanted⟩ := sharePass_leaves (passStart s)
  obtain ⟨k, hk⟩ := sha_afterDirection (passStart s)
  have hstored : t.sha = (storedPass (passStart s)).sha := (hend.get .sha).trans hsha
  refine ⟨afterDirection (passStart s), passPa (passStart s), ?_, ⟨k, ?_⟩, ?_, ⟨_, _, hstored⟩, ?_, ?_⟩
  · exact (psq_afterDirection _).trans (hstart.get .psq)
  · rw [hk, show (passStart s).sha = s.sha from hstart.get .sha]
  · rw [hstored]
    change _ = (afterDirection (passStart s)).sha.effective - _
    rw [hk]
    rfl
  · exact (hend.get .aqu).trans haqu
  · exact (congrArg Psq.wanted (hend.get .psq)).trans hwanted

/-! ## Compressor command (R26, R33, R34) -/

theorem capacityAvailable_iff (p : Psq) (d : Direction) : capacityAvailable p d = true ↔
    p.state = .run ∧ ((p.mode = some .heat ∧ d = .heat) ∨
      ((p.mode = some .cool ∨ p.mode = some .dehum) ∧ d = .cool)) := by
  unfold capacityAvailable
  split
  · simp [*]
  · simp [*]
  · simp [*]
  · -- any other state, mode and direction has no capacity
    grind

/-- With capacity available the pass has a direction, and its COP is of that direction's column (R33). -/
theorem passCop_of_available {s : State} (h : capacityAvailable s.psq s.sha.direction = true) :
    passCop s = copAt s.sha.perf (if s.sha.direction = .heat then PerfRow.heating else PerfRow.cooling)
      (s.sha.outdoor.getD 0) := by
  rw [capacityAvailable_iff] at h
  obtain ⟨-, ⟨-, hdir⟩ | ⟨-, hdir⟩⟩ := h <;> simp [passCop, hdir]

/-- R34: the least of the four, lifted to the minimum or dropped to 0 below it. -/
theorem compressorCommand_eq (n cop pa prev : Nat) : compressorCommand n cop pa prev =
    let p := min (min (powerNeeded n cop) pa) (min 15000 (prev + 1500))
    if p = 0 ∨ 1500 ≤ p then p else if 0 < powerNeeded n cop ∧ 1500 ≤ pa then 1500 else 0 := by
  unfold compressorCommand compressorMin compressorMax compressorRamp
  extract_lets p
  by_cases h : p = 0 ∨ 1500 ≤ p
  · rw [if_pos h, if_neg (by omega)]
  · rw [if_neg h, if_pos (by omega)]

/-- R34: the command lies in 0 or 1500..15 000. -/
theorem compressorCommand_range (n cop pa prev : Nat) :
    compressorCommand n cop pa prev = 0 ∨
      (1500 ≤ compressorCommand n cop pa prev ∧ compressorCommand n cop pa prev ≤ 15000) := by
  rw [compressorCommand_eq]
  dsimp only
  split_ifs <;> omega

/-- R34: the command never exceeds Pa. -/
theorem compressorCommand_le (n cop pa prev : Nat) : compressorCommand n cop pa prev ≤ pa := by
  rw [compressorCommand_eq]
  dsimp only
  split_ifs <;> omega

/-- A pass commands within R34's bounds, with or without capacity. -/
theorem passPe_bounds (pa : Nat) (s : State) :
    (passPe pa s = 0 ∨ (1500 ≤ passPe pa s ∧ passPe pa s ≤ 15000)) ∧ passPe pa s ≤ pa := by
  unfold passPe
  split
  · exact ⟨compressorCommand_range _ _ _ _, compressorCommand_le _ _ _ _⟩
  · exact ⟨.inl rfl, Nat.zero_le _⟩

/-! ## Starvation and wanted mode (R30, R35) -/

theorem satInc_eq_min (hi x : Nat) : satInc hi x = min hi (x + 1) := by
  unfold satInc
  split <;> omega

theorem starved_iff (n pa : Nat) : starved n pa = true ↔ 0 < n ∧ pa < 1500 := by
  rw [starved, Bool.and_eq_true, decide_eq_true_eq, decide_eq_true_eq, compressorMin]

theorem starvedCountAfter_eq (n pa count : Nat) (running : Prop) [Decidable running] :
    starvedCountAfter n pa (decide running) count =
      if (0 < n ∧ pa < 1500) ∧ running then min 5 (count + 1) else 0 := by
  simp only [starvedCountAfter, satInc_eq_min, Bool.and_eq_true, starved_iff, decide_eq_true_eq]

theorem starvedCountAfter_le (n pa count : Nat) (running : Bool) : starvedCountAfter n pa running count ≤ 5 := by
  unfold starvedCountAfter
  rw [satInc_eq_min]
  split <;> omega

/-- R35: a count of at most 5 sets the hold at 5. -/
theorem starvationHoldAfter_iff {n pa count : Nat} {hold : Bool} (hcount : count ≤ 5) :
    starvationHoldAfter n pa count hold = true ↔ (0 < n ∧ pa < 1500) ∧ (hold = true ∨ count = 5) := by
  have hfive : 5 ≤ count ↔ count = 5 := by omega
  simp only [starvationHoldAfter, Bool.and_eq_true, Bool.or_eq_true, starved_iff, decide_eq_true_eq, hfive]

/-- R35: a Pa below the minimum leaves the compressor at 0. -/
theorem passPe_eq_zero_of_lt {pa : Nat} (s : State) (h : pa < 1500) : passPe pa s = 0 := by
  obtain ⟨hrange, hle⟩ := passPe_bounds pa s
  omega

/-! ## Step 4 as the control period leaves it -/

section
variable {s u t : State} {pa : Nat}

/-- The figures of step 4 stand in the Share Allocator and its last share result (R40, R41). -/
theorem PassRan.figures (h : PassRan s u t pa) :
    (t.sha.command = passPe pa u ∧ t.sha.last.pe = passPe pa u ∧ t.sha.last.qd = passQd (passPe pa u) u) ∧
    (t.sha.direction = u.sha.direction ∧ t.sha.last.need = totalNeed u ∧ t.sha.last.pa = pa) ∧
    (t.sha.last.starvedCount = t.sha.starvedCount ∧ t.sha.last.hold = t.sha.starvationHold) := by
  obtain ⟨st, b, hstored⟩ := h.stored
  rw [hstored]
  exact ⟨⟨rfl, rfl, rfl⟩, ⟨rfl, rfl, rfl⟩, rfl, rfl⟩

/-- What step 4 reads of the Share Allocator is as it stood before the pass. -/
theorem PassRan.reads (h : PassRan s u t pa) :
    u.sha.perf = s.sha.perf ∧ u.sha.outdoor = s.sha.outdoor ∧ u.sha.command = s.sha.command ∧
      u.sha.starvedCount = s.sha.starvedCount ∧ u.sha.starvationHold = s.sha.starvationHold := by
  obtain ⟨k, hsha⟩ := h.sha
  rw [hsha]
  exact ⟨rfl, rfl, rfl, rfl, rfl⟩

/-- Command and yield with capacity available (R33, R34). -/
theorem PassRan.available_command (h : PassRan s u t pa)
    (havail : capacityAvailable s.psq t.sha.direction = true) :
    let r := t.sha.last
    let cop := copAt s.sha.perf (if t.sha.direction = .heat then PerfRow.heating else PerfRow.cooling)
      (s.sha.outdoor.getD 0)
    r.pe = compressorCommand r.need cop pa s.sha.command ∧ r.qd = r.pe * cop / 100 := by
  obtain ⟨⟨-, hpe, hqd⟩, ⟨hdir, hneed, -⟩, -⟩ := h.figures
  obtain ⟨hperf, houtdoor, hcommand, -⟩ := h.reads
  rw [hdir, ← h.psq] at havail
  have hcop := passCop_of_available havail
  rw [hperf, houtdoor, ← hdir] at hcop
  dsimp only
  rw [← hcop, hqd, hpe, hneed, ← hcommand]
  exact ⟨if_pos havail, if_pos havail⟩

/-- No capacity, no command and no yield (R26, R34). -/
theorem PassRan.unavailable_command (h : PassRan s u t pa)
    (hnone : ¬capacityAvailable s.psq t.sha.direction = true) : t.sha.last.pe = 0 ∧ t.sha.last.qd = 0 := by
  obtain ⟨⟨-, hpe, hqd⟩, ⟨hdir, -⟩, -⟩ := h.figures
  rw [hdir, ← h.psq] at hnone
  rw [hpe, hqd]
  exact ⟨if_neg hnone, if_neg hnone⟩

/-- Starved count and hold are those of the pass's need and Pa, from the count and hold before it (R35). -/
theorem PassRan.starvation (h : PassRan s u t pa) :
    let count := starvedCountAfter t.sha.last.need t.sha.last.pa (decide (s.psq.state = .run)) s.sha.starvedCount
    t.sha.starvedCount = count ∧
      t.sha.starvationHold = starvationHoldAfter t.sha.last.need t.sha.last.pa count s.sha.starvationHold := by
  obtain ⟨st, b, hstored⟩ := h.stored
  obtain ⟨-, -, -, hcount, hhold⟩ := h.reads
  rw [hstored, ← hcount, ← hhold, ← h.psq]
  exact ⟨rfl, rfl⟩

/-- The wanted mode of the pass is that of its hold and direction and of the humidity state (R30); the Plant Sequencer
records it. -/
theorem PassRan.wanted (h : PassRan s u t pa) :
    t.sha.last.wanted = wantedMode t.sha.starvationHold t.sha.direction t.aqu.humidity ∧
      t.psq.wanted = wantedMode t.sha.starvationHold t.sha.direction t.aqu.humidity := by
  obtain ⟨st, b, hstored⟩ := h.stored
  rw [hstored, h.air, h.recorded]
  exact ⟨rfl, rfl⟩

end

/-- Settles O13: the control period is a pass, and step 4's figures of a pass are those of R30, R34 and R35. -/
theorem passCommandStarvationAndWantedMode : Obligations.PassCommandStarvationAndWantedMode := by
  refine ⟨fun s t hcalm hexec => ?_, fun s t hcalm hexec => ?_⟩
  · obtain ⟨u, pa, h⟩ := controlPeriod_passRan hcalm hexec
    obtain ⟨⟨hcommand, hpe, -⟩, ⟨-, -, hpa⟩, -⟩ := h.figures
    have hbounds := passPe_bounds pa u
    rw [← hpe, ← hpa] at hbounds
    refine ⟨hcommand.trans hpe.symm, hpa.trans h.powerAvailable, fun hnone => ?_, fun havail => ?_, hbounds⟩
    · exact h.unavailable_command (mt (capacityAvailable_iff _ _).mp hnone)
    · obtain ⟨hcmd, hqd⟩ := h.available_command ((capacityAvailable_iff _ _).mpr havail)
      rw [← hpa] at hcmd
      exact ⟨hcmd.trans (compressorCommand_eq _ _ _ _), hqd⟩
  · obtain ⟨u, pa, h⟩ := controlPeriod_passRan hcalm hexec
    obtain ⟨⟨-, hpe, -⟩, ⟨-, -, hpa⟩, hresultCount, hresultHold⟩ := h.figures
    obtain ⟨hcount, hhold⟩ := h.starvation
    obtain ⟨hresultWanted, hwanted⟩ := h.wanted
    have hholdIff := starvationHoldAfter_iff (n := t.sha.last.need) (pa := t.sha.last.pa)
      (hold := s.sha.starvationHold) (starvedCountAfter_le t.sha.last.need t.sha.last.pa s.sha.starvedCount
        (decide (s.psq.state = .run)))
    rw [← hhold, starvedCountAfter_eq] at hholdIff
    rw [starvedCountAfter_eq] at hcount
    simp only [wantedMode, hholdIff] at hresultWanted hwanted
    refine ⟨hcount, hholdIff, fun hstarved => ?_, hresultCount.trans hcount, hresultHold, hresultWanted, hwanted⟩
    rw [hpe]
    exact passPe_eq_zero_of_lt u (hpa ▸ hstarved.2)

end Sys2Proof.Machine
end
